-- ==== Sys2Proof/Word.lean ====
section
/-! DEFINITION. The machine's word types and the two kinds of encoded instruction: the 16-bit frame the
block sends to the chip and the 32-bit command word the host gives the block (spec/30_encoding.md R50, R60). -/

namespace Sys2Proof

/-- A frame on the serial link, bit 15 the first on the wire (R7, R50). -/
abbrev Frame := BitVec 16

/-- A mirror cell, `CELLW` = 16 bits (spec/10_state.md R11). -/
abbrev Cell := BitVec 16

/-- The 32-bit word of the command port (R60). -/
abbrev CommandWord := BitVec 32

/-- A register address, 3 bits (R13, R30). -/
abbrev Addr := BitVec 3

/-- What the decoder reads: a frame or a command word. Each is one word, complete in itself (R50, R66). -/
inductive Code where
  | frame (f : Frame)
  | command (w : CommandWord)
deriving DecidableEq, Repr

end Sys2Proof
end

