-- ==== Sys2Proof/Syntax.lean ====
section
/-! DEFINITION. The syntax: the eight registers, their 32 fields, the field sets of one register, and `Instr`,
one constructor per row of spec/opcode_table.json (16 frames, 25 commands). -/

namespace Sys2Proof

/-- The eight registers (spec/10_state.md R10), in address order. -/
inductive Reg where
  | ctrl
  | torque
  | off
  | blank
  | decay
  | stall
  | drive
  | status
deriving DecidableEq, Repr

/-- The 32 fields (R12), in the order of their field ids; a field is named with its register. -/
inductive Field where
  | ctrlDtime | ctrlIsgain | ctrlExstall | ctrlMode | ctrlRstep | ctrlRdir | ctrlEnbl
  | torqueSimplth | torqueTorque
  | offPwmmode | offToff
  | blankAbt | blankTblank
  | decayDecmod | decayTdecay
  | stallVdiv | stallSdcnt | stallSdthr
  | driveIdrivep | driveIdriven | driveTdrivep | driveTdriven | driveOcpdeg | driveOcpth
  | statusStdlat | statusStd | statusUvlo | statusBpdf | statusApdf | statusBocp | statusAocp | statusOts
deriving DecidableEq, Repr

/-- The register a field belongs to (R12). -/
def Field.reg : Field → Reg
  | .ctrlDtime | .ctrlIsgain | .ctrlExstall | .ctrlMode | .ctrlRstep | .ctrlRdir | .ctrlEnbl => .ctrl
  | .torqueSimplth | .torqueTorque => .torque
  | .offPwmmode | .offToff => .off
  | .blankAbt | .blankTblank => .blank
  | .decayDecmod | .decayTdecay => .decay
  | .stallVdiv | .stallSdcnt | .stallSdthr => .stall
  | .driveIdrivep | .driveIdriven | .driveTdrivep | .driveTdriven | .driveOcpdeg | .driveOcpth => .drive
  | .statusStdlat | .statusStd | .statusUvlo | .statusBpdf | .statusApdf | .statusBocp | .statusAocp | .statusOts => .status

/-- The declared width `w` of a field in bits (R10, R12). -/
def Field.width : Field → Nat
  | .ctrlDtime => 2 | .ctrlIsgain => 2 | .ctrlExstall => 1 | .ctrlMode => 4 | .ctrlRstep => 1 | .ctrlRdir => 1 | .ctrlEnbl => 1
  | .torqueSimplth => 3 | .torqueTorque => 8
  | .offPwmmode => 1 | .offToff => 8
  | .blankAbt => 1 | .blankTblank => 8
  | .decayDecmod => 3 | .decayTdecay => 8
  | .stallVdiv => 2 | .stallSdcnt => 2 | .stallSdthr => 8
  | .driveIdrivep => 2 | .driveIdriven => 2 | .driveTdrivep => 2 | .driveTdriven => 2 | .driveOcpdeg => 2 | .driveOcpth => 2
  | .statusStdlat => 1 | .statusStd => 1 | .statusUvlo => 1 | .statusBpdf => 1 | .statusApdf => 1 | .statusBocp => 1 | .statusAocp => 1 | .statusOts => 1

/-- The cells of register CTRL (R10, R11): 16 bits each, whatever the field's width. -/
structure CtrlCells where
  (dtime isgain exstall mode rstep rdir enbl : Cell)
deriving DecidableEq, Repr

/-- The cells of register TORQUE (R10, R11): 16 bits each, whatever the field's width. -/
structure TorqueCells where
  (simplth torque : Cell)
deriving DecidableEq, Repr

/-- The cells of register OFF (R10, R11): 16 bits each, whatever the field's width. -/
structure OffCells where
  (pwmmode toff : Cell)
deriving DecidableEq, Repr

/-- The cells of register BLANK (R10, R11): 16 bits each, whatever the field's width. -/
structure BlankCells where
  (abt tblank : Cell)
deriving DecidableEq, Repr

/-- The cells of register DECAY (R10, R11): 16 bits each, whatever the field's width. -/
structure DecayCells where
  (decmod tdecay : Cell)
deriving DecidableEq, Repr

/-- The cells of register STALL (R10, R11): 16 bits each, whatever the field's width. -/
structure StallCells where
  (vdiv sdcnt sdthr : Cell)
deriving DecidableEq, Repr

/-- The cells of register DRIVE (R10, R11): 16 bits each, whatever the field's width. -/
structure DriveCells where
  (idrivep idriven tdrivep tdriven ocpdeg ocpth : Cell)
deriving DecidableEq, Repr

/-- The cells of register STATUS (R10, R11): 16 bits each, whatever the field's width. -/
structure StatusCells where
  (stdlat std uvlo bpdf apdf bocp aocp ots : Cell)
deriving DecidableEq, Repr

/-- The instructions: one constructor per row of spec/opcode_table.json.
A `wr` frame carries the register's field values as its cells hold them; encode masks them (R70). -/
inductive Instr where
  | wrCtrl (c : CtrlCells)
  | wrTorque (c : TorqueCells)
  | wrOff (c : OffCells)
  | wrBlank (c : BlankCells)
  | wrDecay (c : DecayCells)
  | wrStall (c : StallCells)
  | wrDrive (c : DriveCells)
  | wrStatus (c : StatusCells)
  | rdCtrl
  | rdTorque
  | rdOff
  | rdBlank
  | rdDecay
  | rdStall
  | rdDrive
  | rdStatus
  | setf (field : Field) (val : BitVec 16)
  | readCtrl
  | readTorque
  | readOff
  | readBlank
  | readDecay
  | readStall
  | readDrive
  | readStatus
  | writeCtrl
  | writeTorque
  | writeOff
  | writeBlank
  | writeDecay
  | writeStall
  | writeDrive
  | writeStatus
  | readAll
  | writeAll
  | init
  | enable
  | disable
  | getStatus
  | clearStatus
  | clearError
deriving DecidableEq, Repr

/-- The read-request frame of a register (R52, R59). -/
def Instr.rdOf : Reg → Instr
  | .ctrl => .rdCtrl
  | .torque => .rdTorque
  | .off => .rdOff
  | .blank => .rdBlank
  | .decay => .rdDecay
  | .stall => .rdStall
  | .drive => .rdDrive
  | .status => .rdStatus

/-- The command READ.r of a register (R105). -/
def Instr.readOf : Reg → Instr
  | .ctrl => .readCtrl
  | .torque => .readTorque
  | .off => .readOff
  | .blank => .readBlank
  | .decay => .readDecay
  | .stall => .readStall
  | .drive => .readDrive
  | .status => .readStatus

/-- The command WRITE.r of a register (R120, R135). -/
def Instr.writeOf : Reg → Instr
  | .ctrl => .writeCtrl
  | .torque => .writeTorque
  | .off => .writeOff
  | .blank => .writeBlank
  | .decay => .writeDecay
  | .stall => .writeStall
  | .drive => .writeDrive
  | .status => .writeStatus

/-- The command words' instructions, as against the frames (R60). -/
def Instr.isCommand : Instr → Bool
  | .wrCtrl _ => false
  | .wrTorque _ => false
  | .wrOff _ => false
  | .wrBlank _ => false
  | .wrDecay _ => false
  | .wrStall _ => false
  | .wrDrive _ => false
  | .wrStatus _ => false
  | .rdCtrl => false
  | .rdTorque => false
  | .rdOff => false
  | .rdBlank => false
  | .rdDecay => false
  | .rdStall => false
  | .rdDrive => false
  | .rdStatus => false
  | .setf _ _ => true
  | .readCtrl => true
  | .readTorque => true
  | .readOff => true
  | .readBlank => true
  | .readDecay => true
  | .readStall => true
  | .readDrive => true
  | .readStatus => true
  | .writeCtrl => true
  | .writeTorque => true
  | .writeOff => true
  | .writeBlank => true
  | .writeDecay => true
  | .writeStall => true
  | .writeDrive => true
  | .writeStatus => true
  | .readAll => true | .writeAll => true | .init => true | .enable => true | .disable => true
  | .getStatus => true | .clearStatus => true | .clearError => true

end Sys2Proof
end

