-- ==== Sys2Proof/Config.lean ====
section
/-! DEFINITION. What an implementation fixes and the free values (spec/00_scope.md R5): the opaque constants have no
body here, so that nothing can be proved of their values beyond their types. -/

namespace Sys2Proof

/-- `MAX_ATTEMPTS`: attempts of one verified write (R5, spec/43_verified_write.md R124). -/
def Config.maxAttempts : BitVec 4 := 10#4

/-- `DEFAULTS` (R5, spec/10_state.md R24): one value per field, each fitting its field by its type. OPEN (D8, entry 9). -/
opaque Config.defaults (f : Field) : BitVec f.width

/-- The reply to the `n`-th exchange the model's `transport` list does not script: any 16-bit value
(spec/20_memory.md R45). Free value, entry 2. -/
opaque Config.freeReply (n : Nat) : Frame

/-- One less than `BACKOFF_UNIT` in some quantum of time: the unit itself is positive (R5, D7). OPEN, entry 12. -/
opaque Config.backoffUnitPred : Nat

/-- `BACKOFF_UNIT`, a positive duration (R5, spec/60_exceptions.md R170). -/
def Config.backoffUnit : Nat := Config.backoffUnitPred + 1

/-- `CS_ACTIVE_LEVEL`: the electrical level of an asserted select (R5, spec/20_memory.md R33). OPEN, entry 12. -/
opaque Config.csActiveLevel : Bool

/-- `SETTLE_DELAY`: the host's wait after chip power-up (R5, spec/70_reset_and_hazards.md R179). OPEN, entry 12. -/
opaque Config.settleDelay : Nat

/-- `BACKOFF(k)`, the delay after the `k`-th failed attempt: linear in `k` (R5, spec/43_verified_write.md R127). -/
def Config.backoff (k : Nat) : Nat := k * Config.backoffUnit

end Sys2Proof
end

