-- ==== Sys2Proof/WellFormed.lean ====
section
/-! DEFINITION. Well-formed instructions: the field values a `wr` frame carries fit their declared widths
(spec/10_state.md R15, spec/40_codec.md R89). Every other operand is legal at every value (spec/30_encoding.md R61). -/

namespace Sys2Proof

/-- The fit of one cell in its field (R15): the stored value is below `2^w`. -/
def Field.fits (f : Field) (c : Cell) : Bool := decide (c.toNat < 2 ^ f.width)

/-- Every cell of CTRL fits its field (R15). -/
def CtrlCells.fits (c : CtrlCells) : Bool :=
  Field.fits .ctrlDtime c.dtime && Field.fits .ctrlIsgain c.isgain && Field.fits .ctrlExstall c.exstall && Field.fits .ctrlMode c.mode && Field.fits .ctrlRstep c.rstep && Field.fits .ctrlRdir c.rdir && Field.fits .ctrlEnbl c.enbl

/-- Every cell of TORQUE fits its field (R15). -/
def TorqueCells.fits (c : TorqueCells) : Bool :=
  Field.fits .torqueSimplth c.simplth && Field.fits .torqueTorque c.torque

/-- Every cell of OFF fits its field (R15). -/
def OffCells.fits (c : OffCells) : Bool :=
  Field.fits .offPwmmode c.pwmmode && Field.fits .offToff c.toff

/-- Every cell of BLANK fits its field (R15). -/
def BlankCells.fits (c : BlankCells) : Bool :=
  Field.fits .blankAbt c.abt && Field.fits .blankTblank c.tblank

/-- Every cell of DECAY fits its field (R15). -/
def DecayCells.fits (c : DecayCells) : Bool :=
  Field.fits .decayDecmod c.decmod && Field.fits .decayTdecay c.tdecay

/-- Every cell of STALL fits its field (R15). -/
def StallCells.fits (c : StallCells) : Bool :=
  Field.fits .stallVdiv c.vdiv && Field.fits .stallSdcnt c.sdcnt && Field.fits .stallSdthr c.sdthr

/-- Every cell of DRIVE fits its field (R15). -/
def DriveCells.fits (c : DriveCells) : Bool :=
  Field.fits .driveIdrivep c.idrivep && Field.fits .driveIdriven c.idriven && Field.fits .driveTdrivep c.tdrivep && Field.fits .driveTdriven c.tdriven && Field.fits .driveOcpdeg c.ocpdeg && Field.fits .driveOcpth c.ocpth

/-- Every cell of STATUS fits its field (R15). -/
def StatusCells.fits (c : StatusCells) : Bool :=
  Field.fits .statusStdlat c.stdlat && Field.fits .statusStd c.std && Field.fits .statusUvlo c.uvlo && Field.fits .statusBpdf c.bpdf && Field.fits .statusApdf c.apdf && Field.fits .statusBocp c.bocp && Field.fits .statusAocp c.aocp && Field.fits .statusOts c.ots

/-- Well-formedness of an instruction: a write frame carries values that fit (R51, R89). -/
def Instr.wellFormed : Instr → Bool
  | .wrCtrl c => c.fits
  | .wrTorque c => c.fits
  | .wrOff c => c.fits
  | .wrBlank c => c.fits
  | .wrDecay c => c.fits
  | .wrStall c => c.fits
  | .wrDrive c => c.fits
  | .wrStatus c => c.fits
  | .rdCtrl => true
  | .rdTorque => true
  | .rdOff => true
  | .rdBlank => true
  | .rdDecay => true
  | .rdStall => true
  | .rdDrive => true
  | .rdStatus => true
  | .setf _ _ => true
  | .readCtrl => true
  | .readTorque => true
  | .readOff => true
  | .readBlank => true
  | .readDecay => true
  | .readStall => true
  | .readDrive => true
  | .readStatus => true
  | .writeCtrl => true
  | .writeTorque => true
  | .writeOff => true
  | .writeBlank => true
  | .writeDecay => true
  | .writeStall => true
  | .writeDrive => true
  | .writeStatus => true
  | .readAll => true | .writeAll => true | .init => true | .enable => true | .disable => true
  | .getStatus => true | .clearStatus => true | .clearError => true

end Sys2Proof
end

