-- ==== Sys2Proof/Decode.lean ====
section
/-! DEFINITION. The codec and the decoder: register addresses and field positions, `ENC_r`, `DEC_r` and `RDREQ`
(spec/40_codec.md), the decoder of frames and command words (spec/30_encoding.md), and after it the encoder. -/

namespace Sys2Proof

/-- `addr(r)`, a constant of the register (spec/10_state.md R10, R13; addresses 1 to 7 by D2, entry 13). -/
def Reg.addr : Reg → Addr
  | .ctrl => 0#3
  | .torque => 1#3
  | .off => 2#3
  | .blank => 3#3
  | .decay => 4#3
  | .stall => 5#3
  | .drive => 6#3
  | .status => 7#3

/-- `reg(a)`, the register at an address; all eight addresses are used (R10, spec/20_memory.md R40). -/
def Reg.ofAddr (a : Addr) : Reg :=
  match a.toNat with
  | 0 => .ctrl
  | 1 => .torque
  | 2 => .off
  | 3 => .blank
  | 4 => .decay
  | 5 => .stall
  | 6 => .drive
  | _ => .status

/-- The field id on the command port (R12, spec/30_encoding.md R61). -/
def Field.fid : Field → BitVec 5
  | .ctrlDtime => 0#5 | .ctrlIsgain => 1#5 | .ctrlExstall => 2#5 | .ctrlMode => 3#5 | .ctrlRstep => 4#5 | .ctrlRdir => 5#5 | .ctrlEnbl => 6#5
  | .torqueSimplth => 7#5 | .torqueTorque => 8#5
  | .offPwmmode => 9#5 | .offToff => 10#5
  | .blankAbt => 11#5 | .blankTblank => 12#5
  | .decayDecmod => 13#5 | .decayTdecay => 14#5
  | .stallVdiv => 15#5 | .stallSdcnt => 16#5 | .stallSdthr => 17#5
  | .driveIdrivep => 18#5 | .driveIdriven => 19#5 | .driveTdrivep => 20#5 | .driveTdriven => 21#5 | .driveOcpdeg => 22#5 | .driveOcpth => 23#5
  | .statusStdlat => 24#5 | .statusStd => 25#5 | .statusUvlo => 26#5 | .statusBpdf => 27#5 | .statusApdf => 28#5 | .statusBocp => 29#5 | .statusAocp => 30#5 | .statusOts => 31#5

/-- The field with a given id; all 32 ids name a field (R61). -/
def Field.ofFid (i : BitVec 5) : Field :=
  match i.toNat with
  | 0 => .ctrlDtime | 1 => .ctrlIsgain | 2 => .ctrlExstall | 3 => .ctrlMode | 4 => .ctrlRstep | 5 => .ctrlRdir | 6 => .ctrlEnbl
  | 7 => .torqueSimplth | 8 => .torqueTorque
  | 9 => .offPwmmode | 10 => .offToff
  | 11 => .blankAbt | 12 => .blankTblank
  | 13 => .decayDecmod | 14 => .decayTdecay
  | 15 => .stallVdiv | 16 => .stallSdcnt | 17 => .stallSdthr
  | 18 => .driveIdrivep | 19 => .driveIdriven | 20 => .driveTdrivep | 21 => .driveTdriven | 22 => .driveOcpdeg | 23 => .driveOcpth
  | 24 => .statusStdlat | 25 => .statusStd | 26 => .statusUvlo | 27 => .statusBpdf | 28 => .statusApdf | 29 => .statusBocp | 30 => .statusAocp | _ => .statusOts

/-- The offset `lo` of a field in the frame (R12; the seven registers other than CTRL by D3, entry 14). -/
def Field.lo : Field → Nat
  | .ctrlDtime => 10 | .ctrlIsgain => 8 | .ctrlExstall => 7 | .ctrlMode => 3 | .ctrlRstep => 2 | .ctrlRdir => 1 | .ctrlEnbl => 0
  | .torqueSimplth => 8 | .torqueTorque => 0
  | .offPwmmode => 8 | .offToff => 0
  | .blankAbt => 8 | .blankTblank => 0
  | .decayDecmod => 8 | .decayTdecay => 0
  | .stallVdiv => 10 | .stallSdcnt => 8 | .stallSdthr => 0
  | .driveIdrivep => 10 | .driveIdriven => 8 | .driveTdrivep => 6 | .driveTdriven => 4 | .driveOcpdeg => 2 | .driveOcpth => 0
  | .statusStdlat => 7 | .statusStd => 6 | .statusUvlo => 5 | .statusBpdf => 4 | .statusApdf => 3 | .statusBocp => 2 | .statusAocp => 1 | .statusOts => 0

/-- The fields of a register, most significant first (R10). -/
def Reg.fields : Reg → List Field
  | .ctrl => [.ctrlDtime, .ctrlIsgain, .ctrlExstall, .ctrlMode, .ctrlRstep, .ctrlRdir, .ctrlEnbl]
  | .torque => [.torqueSimplth, .torqueTorque]
  | .off => [.offPwmmode, .offToff]
  | .blank => [.blankAbt, .blankTblank]
  | .decay => [.decayDecmod, .decayTdecay]
  | .stall => [.stallVdiv, .stallSdcnt, .stallSdthr]
  | .drive => [.driveIdrivep, .driveIdriven, .driveTdrivep, .driveTdriven, .driveOcpdeg, .driveOcpth]
  | .status => [.statusStdlat, .statusStd, .statusUvlo, .statusBpdf, .statusApdf, .statusBocp, .statusAocp, .statusOts]

/-- The eight registers in address order, the order of the bulk commands (R10, R140). -/
def Reg.all : List Reg := [.ctrl, .torque, .off, .blank, .decay, .stall, .drive, .status]

/-- The reserved payload bits of a register: those no field covers (R58, D4). -/
def Reg.reserved : Reg → Frame
  | .ctrl => 0x0000 | .torque => 0x0800 | .off => 0x0E00 | .blank => 0x0E00
  | .decay => 0x0800 | .stall => 0x0000 | .drive => 0x0000 | .status => 0x0F00

/-! ### Encode, one function per register (R70, R72 to R79) -/

/-- `ENC_CTRL` (R72). -/
def CtrlCells.enc (c : CtrlCells) : Frame :=
  0x0000#16 ||| ((c.dtime &&& 0x3#16) <<< 10) ||| ((c.isgain &&& 0x3#16) <<< 8)
    ||| ((c.exstall &&& 0x1#16) <<< 7) ||| ((c.mode &&& 0xF#16) <<< 3) ||| ((c.rstep &&& 0x1#16) <<< 2)
    ||| ((c.rdir &&& 0x1#16) <<< 1) ||| (c.enbl &&& 0x1#16)

/-- `ENC_TORQUE` (R73). -/
def TorqueCells.enc (c : TorqueCells) : Frame :=
  0x1000#16 ||| ((c.simplth &&& 0x7#16) <<< 8) ||| (c.torque &&& 0xFF#16)

/-- `ENC_OFF` (R74). -/
def OffCells.enc (c : OffCells) : Frame :=
  0x2000#16 ||| ((c.pwmmode &&& 0x1#16) <<< 8) ||| (c.toff &&& 0xFF#16)

/-- `ENC_BLANK` (R75). -/
def BlankCells.enc (c : BlankCells) : Frame :=
  0x3000#16 ||| ((c.abt &&& 0x1#16) <<< 8) ||| (c.tblank &&& 0xFF#16)

/-- `ENC_DECAY` (R76). -/
def DecayCells.enc (c : DecayCells) : Frame :=
  0x4000#16 ||| ((c.decmod &&& 0x7#16) <<< 8) ||| (c.tdecay &&& 0xFF#16)

/-- `ENC_STALL` (R77). -/
def StallCells.enc (c : StallCells) : Frame :=
  0x5000#16 ||| ((c.vdiv &&& 0x3#16) <<< 10) ||| ((c.sdcnt &&& 0x3#16) <<< 8) ||| (c.sdthr &&& 0xFF#16)

/-- `ENC_DRIVE` (R78). -/
def DriveCells.enc (c : DriveCells) : Frame :=
  0x6000#16 ||| ((c.idrivep &&& 0x3#16) <<< 10) ||| ((c.idriven &&& 0x3#16) <<< 8)
    ||| ((c.tdrivep &&& 0x3#16) <<< 6) ||| ((c.tdriven &&& 0x3#16) <<< 4) ||| ((c.ocpdeg &&& 0x3#16) <<< 2)
    ||| (c.ocpth &&& 0x3#16)

/-- `ENC_STATUS` (R79). -/
def StatusCells.enc (c : StatusCells) : Frame :=
  0x7000#16 ||| ((c.stdlat &&& 0x1#16) <<< 7) ||| ((c.std &&& 0x1#16) <<< 6) ||| ((c.uvlo &&& 0x1#16) <<< 5)
    ||| ((c.bpdf &&& 0x1#16) <<< 4) ||| ((c.apdf &&& 0x1#16) <<< 3) ||| ((c.bocp &&& 0x1#16) <<< 2)
    ||| ((c.aocp &&& 0x1#16) <<< 1) ||| (c.ots &&& 0x1#16)

/-! ### Decode, one function per register (R71, R80 to R87) -/

/-- `DEC_CTRL` (R80). -/
def CtrlCells.dec (q : Frame) : CtrlCells :=
  { dtime := (q >>> 10) &&& 0x3#16, isgain := (q >>> 8) &&& 0x3#16, exstall := (q >>> 7) &&& 0x1#16,
    mode := (q >>> 3) &&& 0xF#16, rstep := (q >>> 2) &&& 0x1#16, rdir := (q >>> 1) &&& 0x1#16,
    enbl := q &&& 0x1#16 }

/-- `DEC_TORQUE` (R81). -/
def TorqueCells.dec (q : Frame) : TorqueCells :=
  { simplth := (q >>> 8) &&& 0x7#16, torque := q &&& 0xFF#16 }

/-- `DEC_OFF` (R82). -/
def OffCells.dec (q : Frame) : OffCells :=
  { pwmmode := (q >>> 8) &&& 0x1#16, toff := q &&& 0xFF#16 }

/-- `DEC_BLANK` (R83). -/
def BlankCells.dec (q : Frame) : BlankCells :=
  { abt := (q >>> 8) &&& 0x1#16, tblank := q &&& 0xFF#16 }

/-- `DEC_DECAY` (R84). -/
def DecayCells.dec (q : Frame) : DecayCells :=
  { decmod := (q >>> 8) &&& 0x7#16, tdecay := q &&& 0xFF#16 }

/-- `DEC_STALL` (R85). -/
def StallCells.dec (q : Frame) : StallCells :=
  { vdiv := (q >>> 10) &&& 0x3#16, sdcnt := (q >>> 8) &&& 0x3#16, sdthr := q &&& 0xFF#16 }

/-- `DEC_DRIVE` (R86). -/
def DriveCells.dec (q : Frame) : DriveCells :=
  { idrivep := (q >>> 10) &&& 0x3#16, idriven := (q >>> 8) &&& 0x3#16, tdrivep := (q >>> 6) &&& 0x3#16,
    tdriven := (q >>> 4) &&& 0x3#16, ocpdeg := (q >>> 2) &&& 0x3#16, ocpth := q &&& 0x3#16 }

/-- `DEC_STATUS` (R87). -/
def StatusCells.dec (q : Frame) : StatusCells :=
  { stdlat := (q >>> 7) &&& 0x1#16, std := (q >>> 6) &&& 0x1#16, uvlo := (q >>> 5) &&& 0x1#16,
    bpdf := (q >>> 4) &&& 0x1#16, apdf := (q >>> 3) &&& 0x1#16, bocp := (q >>> 2) &&& 0x1#16,
    aocp := (q >>> 1) &&& 0x1#16, ots := q &&& 0x1#16 }

/-- `RDREQ(a)`, the read-request frame (R52, R88). -/
def rdreq (a : Addr) : Frame := 0x8000#16 ||| (a.setWidth 16 <<< 12)

/-! ### The decoder -/

/-- The address field of a frame, bits 14:12 (R51, R52). -/
def Frame.address (f : Frame) : Addr := f.extractLsb' 12 3

/-- The write flag: bit 15 is 0 in a W frame (R51, R59). -/
def Frame.isWrite (f : Frame) : Bool := !f.getLsbD 15

/-- The W frame of a register with the field values of `f` (R54, R59). -/
def Instr.wrOfFrame (f : Frame) : Reg → Instr
  | .ctrl => .wrCtrl (.dec f)
  | .torque => .wrTorque (.dec f)
  | .off => .wrOff (.dec f)
  | .blank => .wrBlank (.dec f)
  | .decay => .wrDecay (.dec f)
  | .stall => .wrStall (.dec f)
  | .drive => .wrDrive (.dec f)
  | .status => .wrStatus (.dec f)

/-- The frames the block sends, W or Q, and no others (R59): a W frame has its reserved payload bits 0, a Q frame
its whole payload. -/
def decodeFrame (f : Frame) : Option Instr :=
  let r := Reg.ofAddr (Frame.address f)
  if Frame.isWrite f then
    if f &&& r.reserved = 0 then some (Instr.wrOfFrame f r) else none
  else
    if f &&& 0x0FFF = 0 then some (Instr.rdOf r) else none

/-- The commands without operands, by operation code (R60, R62). -/
def Instr.ofBareOp : Nat → Option Instr
  | 0x4 => some .readAll | 0x5 => some .writeAll | 0x6 => some .init | 0x7 => some .enable | 0x8 => some .disable
  | 0x9 => some .getStatus | 0xA => some .clearStatus | 0xB => some .clearError | _ => none

/-- The command a word spells; `none` for an illegal word (R60 to R62, R65). -/
def decodeCommand (w : CommandWord) : Option Instr :=
  let reg : Addr := w.extractLsb' 24 3
  let fid : BitVec 5 := w.extractLsb' 16 5
  let val : BitVec 16 := w.extractLsb' 0 16
  if w &&& 0x08E00000 = 0 then
    match (w.extractLsb' 28 4).toNat with
    | 0x1 => if reg = 0 then some (.setf (Field.ofFid fid) val) else none
    | 0x2 => if fid = 0 ∧ val = 0 then some (Instr.readOf (Reg.ofAddr reg)) else none
    | 0x3 => if fid = 0 ∧ val = 0 then some (Instr.writeOf (Reg.ofAddr reg)) else none
    | op => if reg = 0 ∧ fid = 0 ∧ val = 0 then Instr.ofBareOp op else none
  else none

/-- The decoder, total on every frame and every command word. -/
def decode : Code → Option Instr
  | .frame f => decodeFrame f
  | .command w => decodeCommand w

/-- The decoder on a row of spec/opcode_table.json: 16 bits are a frame, 32 bits a command word. There are no bytes
to order: a frame is sent most significant bit first (spec/20_memory.md R32), a command word is one port value. -/
def decodeTableWord (nbits w : Nat) : Option Instr :=
  if nbits = 16 then decode (.frame (BitVec.ofNat 16 w))
  else if nbits = 32 then decode (.command (BitVec.ofNat 32 w))
  else none

/-! ### The encoder -/

/-- The fields of a command word in their places (R60): op, 0, reg, 000, fid, val. -/
def commandWord (op : BitVec 4) (reg : Addr) (fid : BitVec 5) (val : BitVec 16) : CommandWord :=
  (op.setWidth 32 <<< 28) ||| (reg.setWidth 32 <<< 24) ||| (fid.setWidth 32 <<< 16) ||| val.setWidth 32

/-- The command word of a command without operands (R62). -/
def bareCommand (op : BitVec 4) : Code := .command (commandWord op 0 0 0)

/-- The command word of READ.r or WRITE.r (R62). -/
def regCommand (op : BitVec 4) (r : Reg) : Code := .command (commandWord op r.addr 0 0)

/-- The word of an instruction. -/
def encode : Instr → Code
  | .wrCtrl c => .frame c.enc
  | .wrTorque c => .frame c.enc
  | .wrOff c => .frame c.enc
  | .wrBlank c => .frame c.enc
  | .wrDecay c => .frame c.enc
  | .wrStall c => .frame c.enc
  | .wrDrive c => .frame c.enc
  | .wrStatus c => .frame c.enc
  | .rdCtrl => .frame (rdreq (Reg.addr .ctrl))
  | .rdTorque => .frame (rdreq (Reg.addr .torque))
  | .rdOff => .frame (rdreq (Reg.addr .off))
  | .rdBlank => .frame (rdreq (Reg.addr .blank))
  | .rdDecay => .frame (rdreq (Reg.addr .decay))
  | .rdStall => .frame (rdreq (Reg.addr .stall))
  | .rdDrive => .frame (rdreq (Reg.addr .drive))
  | .rdStatus => .frame (rdreq (Reg.addr .status))
  | .setf f v => .command (commandWord 0x1 0 f.fid v)
  | .readCtrl => regCommand 0x2 .ctrl
  | .readTorque => regCommand 0x2 .torque
  | .readOff => regCommand 0x2 .off
  | .readBlank => regCommand 0x2 .blank
  | .readDecay => regCommand 0x2 .decay
  | .readStall => regCommand 0x2 .stall
  | .readDrive => regCommand 0x2 .drive
  | .readStatus => regCommand 0x2 .status
  | .writeCtrl => regCommand 0x3 .ctrl
  | .writeTorque => regCommand 0x3 .torque
  | .writeOff => regCommand 0x3 .off
  | .writeBlank => regCommand 0x3 .blank
  | .writeDecay => regCommand 0x3 .decay
  | .writeStall => regCommand 0x3 .stall
  | .writeDrive => regCommand 0x3 .drive
  | .writeStatus => regCommand 0x3 .status
  | .readAll => bareCommand 0x4
  | .writeAll => bareCommand 0x5
  | .init => bareCommand 0x6
  | .enable => bareCommand 0x7
  | .disable => bareCommand 0x8
  | .getStatus => bareCommand 0x9
  | .clearStatus => bareCommand 0xA
  | .clearError => bareCommand 0xB

/-! ### The patterns of the opcode table (R59, R62) -/

/-- One row of the table: a word spells it when `word &&& mask = pattern`. -/
inductive Row where
  | frame (pattern mask : Frame)
  | command (pattern mask : CommandWord)
deriving DecidableEq, Repr

/-- Whether a word spells a row (R62). -/
def Row.spelledBy : Row → Code → Bool
  | .frame p m, .frame f => decide (f &&& m = p)
  | .command p m, .command w => decide (w &&& m = p)
  | _, _ => false

/-- The row of an instruction: the patterns and masks of R59 and R62. -/
def Instr.row : Instr → Row
  | .wrCtrl _ => .frame 0x0000 0xF000
  | .wrTorque _ => .frame 0x1000 0xF800
  | .wrOff _ => .frame 0x2000 0xFE00
  | .wrBlank _ => .frame 0x3000 0xFE00
  | .wrDecay _ => .frame 0x4000 0xF800
  | .wrStall _ => .frame 0x5000 0xF000
  | .wrDrive _ => .frame 0x6000 0xF000
  | .wrStatus _ => .frame 0x7000 0xFF00
  | .rdCtrl => .frame 0x8000 0xFFFF
  | .rdTorque => .frame 0x9000 0xFFFF
  | .rdOff => .frame 0xA000 0xFFFF
  | .rdBlank => .frame 0xB000 0xFFFF
  | .rdDecay => .frame 0xC000 0xFFFF
  | .rdStall => .frame 0xD000 0xFFFF
  | .rdDrive => .frame 0xE000 0xFFFF
  | .rdStatus => .frame 0xF000 0xFFFF
  | .setf _ _ => .command 0x10000000 0xFFE00000
  | .readCtrl => .command 0x20000000 0xFFFFFFFF
  | .readTorque => .command 0x21000000 0xFFFFFFFF
  | .readOff => .command 0x22000000 0xFFFFFFFF
  | .readBlank => .command 0x23000000 0xFFFFFFFF
  | .readDecay => .command 0x24000000 0xFFFFFFFF
  | .readStall => .command 0x25000000 0xFFFFFFFF
  | .readDrive => .command 0x26000000 0xFFFFFFFF
  | .readStatus => .command 0x27000000 0xFFFFFFFF
  | .writeCtrl => .command 0x30000000 0xFFFFFFFF
  | .writeTorque => .command 0x31000000 0xFFFFFFFF
  | .writeOff => .command 0x32000000 0xFFFFFFFF
  | .writeBlank => .command 0x33000000 0xFFFFFFFF
  | .writeDecay => .command 0x34000000 0xFFFFFFFF
  | .writeStall => .command 0x35000000 0xFFFFFFFF
  | .writeDrive => .command 0x36000000 0xFFFFFFFF
  | .writeStatus => .command 0x37000000 0xFFFFFFFF
  | .readAll => .command 0x40000000 0xFFFFFFFF
  | .writeAll => .command 0x50000000 0xFFFFFFFF
  | .init => .command 0x60000000 0xFFFFFFFF
  | .enable => .command 0x70000000 0xFFFFFFFF
  | .disable => .command 0x80000000 0xFFFFFFFF
  | .getStatus => .command 0x90000000 0xFFFFFFFF
  | .clearStatus => .command 0xA0000000 0xFFFFFFFF
  | .clearError => .command 0xB0000000 0xFFFFFFFF

end Sys2Proof
end

