-- ==== Sys2Proof/Machine/State.lean ====
section
/-! DEFINITION. The machine's state as plain data (spec/10_state.md), its reset (spec/70_reset_and_hazards.md R175,
R176), and the reasons a step can stop. -/

namespace Sys2Proof.Machine

/-- The mirror: eight registers of field cells (R10, R11, R14). -/
structure Mirror where
  ctrl : CtrlCells
  torque : TorqueCells
  off : OffCells
  blank : BlankCells
  decay : DecayCells
  stall : StallCells
  drive : DriveCells
  status : StatusCells
deriving DecidableEq, Repr

/-- The phases of the controller (R18). -/
inductive Phase where
  | idle | wEncode | wTransmit | wVerify | wCompare | wBackoff | sEncode | sTransmit | rExchange | rDecode | bNext
deriving DecidableEq, Repr

/-- The values of `op`: one per operation code of the command set (R19, spec/30_encoding.md R60). -/
inductive Op where
  | setf | read | write | readAll | writeAll | init | enable | disable | getStatus | clearStatus | clearError
deriving DecidableEq, Repr

/-- The result of a command (R21). -/
inductive Result where
  | ok | fail
deriving DecidableEq, Repr

/-- The events of the history (spec/20_memory.md R31, R33, R41; spec/60_exceptions.md R170; R21). -/
inductive Event where
  /-- `CS(1)` (true) or `CS(0)` (false): select asserted or de-asserted (R33). -/
  | cs (asserted : Bool)
  /-- `XCHG(out, in)`: one exchange (R31). -/
  | xchg (out reply : Frame)
  /-- `DELAY(k)`: the backoff delay after the k-th failed attempt (R170). -/
  | delay (k : Nat)
  /-- `Done(res)`: the completion event of a command (R21). -/
  | done (res : Result)
deriving DecidableEq, Repr

/-- A scripted answer of the Transport: a reply, or an exchange that never returns (R45, R46; entries 2 and 3). -/
inductive Answer where
  | reply (w : Frame)
  | never
deriving DecidableEq, Repr

/-- The machine's state. From `hostQueue` on, the fields are the model's own: the block's environment and the record of
its events (entries 2 to 5). -/
structure State where
  /-- The mirror cells `M[r].f` (R10, R11). -/
  mirror : Mirror
  /-- The error flag (R16). -/
  err : Bool
  /-- The step the controller takes next (R18). -/
  phase : Phase
  /-- The command in progress (R19). -/
  op : Op
  /-- The address of the register worked on (R19). -/
  cur : Addr
  /-- The number of the attempt in progress (R19). -/
  att : BitVec 4
  /-- The frame encoded for the current write (R19). -/
  txf : Frame
  /-- The last reply to a read-request frame (R19). -/
  rbf : Frame
  /-- Bulk commands: how many registers have been started (R19). -/
  seq : BitVec 4
  /-- Bulk commands: no register has failed so far (R19). -/
  acc : Bool
  /-- The select output, true = asserted (R33). -/
  select : Bool
  /-- Port input `cmd_valid` (R20). -/
  cmdValid : Bool
  /-- Port input `cw` (R20). -/
  cw : CommandWord
  /-- The command words the host will still offer, the next one first (R6, R63; entry 5). -/
  hostQueue : List CommandWord
  /-- Scripted answers of the Transport, the next one first (R45; entry 2). -/
  transport : List Answer
  /-- How many free replies have been drawn (entry 2). -/
  freeDraws : Nat
  /-- The delay service (R46; entry 3): `none` where every wait ends; `some n` where `n` more waits end and the one after
  them never does. -/
  delayHangsAfter : Option Nat
  /-- The totally ordered history of events, oldest first (R41; entry 4). -/
  history : List Event
deriving DecidableEq, Repr

/-- Faults. The block has none: all its failures are reported by `err` and `Done(FAIL)` (spec/60_exceptions.md R155,
R159; entry 19), so no step raises one. -/
inductive Fault where
deriving DecidableEq, Repr

/-- Refusals: steps to which the spec gives no meaning. -/
inductive Refusal where
  /-- Raised by `exec` for an instruction with no meaning yet; no arm raises it. Safe: nothing is claimed of the step. -/
  | notModelled (mnemonic : String)
  /-- Raised by `step` when the host offers a word that spells no command (spec/30_encoding.md R65, D14; entry 7).
  Safe: the spec has the model refuse such a word. -/
  | illegalCommandWord (w : CommandWord)
deriving DecidableEq, Repr

/-- The mirror whose every cell is given by its field. -/
def Mirror.ofFields (g : Field → Cell) : Mirror where
  ctrl := ⟨g .ctrlDtime, g .ctrlIsgain, g .ctrlExstall, g .ctrlMode, g .ctrlRstep, g .ctrlRdir, g .ctrlEnbl⟩
  torque := ⟨g .torqueSimplth, g .torqueTorque⟩
  off := ⟨g .offPwmmode, g .offToff⟩
  blank := ⟨g .blankAbt, g .blankTblank⟩
  decay := ⟨g .decayDecmod, g .decayTdecay⟩
  stall := ⟨g .stallVdiv, g .stallSdcnt, g .stallSdthr⟩
  drive := ⟨g .driveIdrivep, g .driveIdriven, g .driveTdrivep, g .driveTdriven, g .driveOcpdeg, g .driveOcpth⟩
  status := ⟨g .statusStdlat, g .statusStd, g .statusUvlo, g .statusBpdf, g .statusApdf, g .statusBocp, g .statusAocp, g .statusOts⟩

/-- The mirror loaded with `DEFAULTS` (R24): each default, which fits its field, in a 16-bit cell. -/
def Mirror.defaults : Mirror := Mirror.ofFields fun f => (Config.defaults f).setWidth 16

/-- The state right after reset (R24 to R26, R176). `op`, `cur`, `att`, `txf`, `rbf`, `seq`, `acc` are unspecified there:
the values here are the model's (entry 8); so are those of the port inputs and of the model's own fields (entry 10). -/
def State.reset : State where
  mirror := Mirror.defaults
  err := false
  phase := .idle
  op := .setf
  cur := 0
  att := 1
  txf := 0
  rbf := 0
  seq := 0
  acc := false
  select := false
  cmdValid := false
  cw := 0
  hostQueue := []
  transport := []
  freeDraws := 0
  delayHangsAfter := none
  history := []

end Sys2Proof.Machine
end

