-- ==== Sys2Proof/Machine/Flags.lean ====
section
/-! DEFINITION. The flags: the error flag `err` (spec/10_state.md R16), the result bit `acc` of a bulk command (R19), the
`busy` output (R20) and the 12-bit compare of a verified write (spec/43_verified_write.md R124). -/

namespace Sys2Proof.Machine

/-- `err <- b` (R16). -/
def State.setErr (b : Bool) (s : State) : State := { s with err := b }

/-- `busy` is 0 exactly when `phase` is IDLE (R20). -/
def State.busy (s : State) : Bool := s.phase != .idle

/-- The compare of a verified write: equality of the low 12 bits, reserved payload bits included, bits 15:12 masked off
(R124, spec/30_encoding.md R58). -/
def payloadsMatch (tx rb : Frame) : Bool := tx &&& 0x0FFF == rb &&& 0x0FFF

/-- The end of a sub-operation of a bulk command clears `acc` on FAIL (spec/44_bulk_and_system.md R140). -/
def State.recordResult (res : Result) (s : State) : State :=
  match res with
  | .ok => s
  | .fail => { s with acc := false }

/-- The result of a bulk command: OK if no register failed (R140, D15, entry 15). -/
def State.bulkResult (s : State) : Result := if s.acc then .ok else .fail

/-- The electrical level of the select output: `CS_ACTIVE_LEVEL` while asserted (spec/20_memory.md R33; entry 12). -/
def State.selectLevel (s : State) : Bool := if s.select then Config.csActiveLevel else !Config.csActiveLevel

/-- The duration of an event where the spec gives one: `BACKOFF(k)` for a delay (spec/60_exceptions.md R170). -/
def Event.delayTime : Event → Nat
  | .delay k => Config.backoff k
  | _ => 0

end Sys2Proof.Machine
end

