-- ==== Sys2Proof/Machine/Operands.lean ====
section
/-! DEFINITION. The operands: a mirror cell by its field (spec/30_encoding.md R61), a whole register encoded from the
mirror or decoded into it (spec/40_codec.md R70, R71). -/

namespace Sys2Proof.Machine

/-- `M[r].f`, the read of a cell (spec/00_scope.md R8). -/
def Mirror.get (m : Mirror) : Field → Cell
  | .ctrlDtime => m.ctrl.dtime | .ctrlIsgain => m.ctrl.isgain | .ctrlExstall => m.ctrl.exstall | .ctrlMode => m.ctrl.mode | .ctrlRstep => m.ctrl.rstep | .ctrlRdir => m.ctrl.rdir | .ctrlEnbl => m.ctrl.enbl
  | .torqueSimplth => m.torque.simplth | .torqueTorque => m.torque.torque
  | .offPwmmode => m.off.pwmmode | .offToff => m.off.toff
  | .blankAbt => m.blank.abt | .blankTblank => m.blank.tblank
  | .decayDecmod => m.decay.decmod | .decayTdecay => m.decay.tdecay
  | .stallVdiv => m.stall.vdiv | .stallSdcnt => m.stall.sdcnt | .stallSdthr => m.stall.sdthr
  | .driveIdrivep => m.drive.idrivep | .driveIdriven => m.drive.idriven | .driveTdrivep => m.drive.tdrivep | .driveTdriven => m.drive.tdriven | .driveOcpdeg => m.drive.ocpdeg | .driveOcpth => m.drive.ocpth
  | .statusStdlat => m.status.stdlat | .statusStd => m.status.std | .statusUvlo => m.status.uvlo | .statusBpdf => m.status.bpdf | .statusApdf => m.status.apdf | .statusBocp => m.status.bocp | .statusAocp => m.status.aocp | .statusOts => m.status.ots

/-- `M[r].f <- v`, the write of a cell: all 16 bits, no masking (R8, spec/41_mirror_setf.md R100). -/
def Mirror.set (m : Mirror) (f : Field) (v : Cell) : Mirror :=
  match f with
  | .ctrlDtime => { m with ctrl.dtime := v }
  | .ctrlIsgain => { m with ctrl.isgain := v }
  | .ctrlExstall => { m with ctrl.exstall := v }
  | .ctrlMode => { m with ctrl.mode := v }
  | .ctrlRstep => { m with ctrl.rstep := v }
  | .ctrlRdir => { m with ctrl.rdir := v }
  | .ctrlEnbl => { m with ctrl.enbl := v }
  | .torqueSimplth => { m with torque.simplth := v }
  | .torqueTorque => { m with torque.torque := v }
  | .offPwmmode => { m with off.pwmmode := v }
  | .offToff => { m with off.toff := v }
  | .blankAbt => { m with blank.abt := v }
  | .blankTblank => { m with blank.tblank := v }
  | .decayDecmod => { m with decay.decmod := v }
  | .decayTdecay => { m with decay.tdecay := v }
  | .stallVdiv => { m with stall.vdiv := v }
  | .stallSdcnt => { m with stall.sdcnt := v }
  | .stallSdthr => { m with stall.sdthr := v }
  | .driveIdrivep => { m with drive.idrivep := v }
  | .driveIdriven => { m with drive.idriven := v }
  | .driveTdrivep => { m with drive.tdrivep := v }
  | .driveTdriven => { m with drive.tdriven := v }
  | .driveOcpdeg => { m with drive.ocpdeg := v }
  | .driveOcpth => { m with drive.ocpth := v }
  | .statusStdlat => { m with status.stdlat := v }
  | .statusStd => { m with status.std := v }
  | .statusUvlo => { m with status.uvlo := v }
  | .statusBpdf => { m with status.bpdf := v }
  | .statusApdf => { m with status.apdf := v }
  | .statusBocp => { m with status.bocp := v }
  | .statusAocp => { m with status.aocp := v }
  | .statusOts => { m with status.ots := v }

/-- `ENC_r(M[r])` (spec/40_codec.md R70, R72 to R79). -/
def Mirror.encode (m : Mirror) : Reg → Frame
  | .ctrl => m.ctrl.enc
  | .torque => m.torque.enc
  | .off => m.off.enc
  | .blank => m.blank.enc
  | .decay => m.decay.enc
  | .stall => m.stall.enc
  | .drive => m.drive.enc
  | .status => m.status.enc

/-- The mirror with every cell of register `r` written by `DEC_r` of a reply (R71, spec/42_read.md R105). -/
def Mirror.storeReply (m : Mirror) (r : Reg) (q : Frame) : Mirror :=
  match r with
  | .ctrl => { m with ctrl := .dec q }
  | .torque => { m with torque := .dec q }
  | .off => { m with off := .dec q }
  | .blank => { m with blank := .dec q }
  | .decay => { m with decay := .dec q }
  | .stall => { m with stall := .dec q }
  | .drive => { m with drive := .dec q }
  | .status => { m with status := .dec q }

/-- The mirror with the eight STATUS cells zero (spec/44_bulk_and_system.md R148, D26). -/
def Mirror.clearStatus (m : Mirror) : Mirror := { m with status := ⟨0, 0, 0, 0, 0, 0, 0, 0⟩ }

/-- The mirror with `M[CTRL].ENBL` at a value (R145, R146). -/
def Mirror.setEnbl (m : Mirror) (v : Cell) : Mirror := { m with ctrl.enbl := v }

/-- The W frame, as an instruction, that carries register `r` of the mirror (spec/30_encoding.md R51, R54). -/
def wrOf (m : Mirror) : Reg → Instr
  | .ctrl => .wrCtrl m.ctrl
  | .torque => .wrTorque m.torque
  | .off => .wrOff m.off
  | .blank => .wrBlank m.blank
  | .decay => .wrDecay m.decay
  | .stall => .wrStall m.stall
  | .drive => .wrDrive m.drive
  | .status => .wrStatus m.status

end Sys2Proof.Machine
end

