-- ==== Sys2Proof/Machine/Ops.lean ====
section
/-! DEFINITION. The shared operations: one exchange on the Transport (spec/20_memory.md R31, R33, R36, R37), the end of a
sub-operation and of a command (spec/44_bulk_and_system.md R140), `raise WriteExhausted` and the return from it
(spec/60_exceptions.md R158, R163), the acceptance of a command (spec/10_state.md R20), and the fetch. -/

namespace Sys2Proof.Machine

/-- Append events to the history (R41). -/
def State.record (es : List Event) (s : State) : State := { s with history := s.history ++ es }

/-- `phase <- p` (R18). -/
def State.goto (p : Phase) (s : State) : State := { s with phase := p }

/-! ### The Transport -/

/-- Select asserted: the event `CS(1)` where it was de-asserted (R33). -/
def State.assertSelect (s : State) : State :=
  if s.select then s else State.record [.cs true] { s with select := true }

/-- Select de-asserted after an exchange: the event `CS(0)` (R33). -/
def State.releaseSelect (s : State) : State := State.record [.cs false] { s with select := false }

/-- The Transport's answer to the next exchange and the state with that answer taken: the next scripted answer, and a
free value where none is scripted (R45; entry 2); `none` where the exchange never returns (R46; entry 3). -/
def State.takeAnswer (s : State) : Option (Frame × State) :=
  match s.transport with
  | .reply w :: rest => some (w, { s with transport := rest })
  | .never :: _ => none
  | [] => some (Config.freeReply s.freeDraws, { s with freeDraws := s.freeDraws + 1 })

/-- `Exchange16(out)` (R31, R33): select asserted, 16 bits out and 16 bits in, select de-asserted. `cont` goes on with
the reply. Where the exchange never returns the state stays as it is but for the asserted select (R46). -/
def exchange (out : Frame) (cont : Frame → State → State) (s : State) : State :=
  match s.assertSelect.takeAnswer with
  | some (reply, s') => cont reply (State.releaseSelect (State.record [.xchg out reply] s'))
  | none => s.assertSelect

/-! ### The delay service -/

/-- The delay service's next wait: the state with that wait taken, or `none` where it never ends (R46, R170; entry 3). -/
def State.takeDelay (s : State) : Option State :=
  match s.delayHangsAfter with
  | none => some s
  | some 0 => none
  | some (n + 1) => some { s with delayHangsAfter := some n }

/-! ### The end of a sub-operation and of a command -/

/-- `Done(res)`: the completion event, in the step that returns `phase` to IDLE (R21). The sequencing registers, which have
no meaning between commands (R19, D27), keep the command's last values there: the model's choice, entry 22. -/
def done (res : Result) (s : State) : State := State.goto .idle (State.record [.done res] s)

/-- The commands that walk the eight registers (R140). -/
def Op.isBulk : Op → Bool
  | .readAll | .writeAll | .init => true
  | _ => false

/-- `finish(res)` (R140): back to B_NEXT inside a bulk command, else the completion of the command. -/
def finish (res : Result) (s : State) : State :=
  if s.op.isBulk then State.goto .bNext (State.recordResult res s) else done res s

/-! ### The error event, the block's analogue of taking an exception, and the return from it -/

/-- `raise WriteExhausted(r)` (R158, R162): `err <- 1` and the sub-operation ends with `finish(FAIL)`. Nothing is saved
and control goes nowhere else. -/
def raiseWriteExhausted (s : State) : State := finish .fail (State.setErr true s)

/-- The return from it (R163): `err <- 0`, and nothing else is restored. -/
def returnFromError (s : State) : State := State.setErr false s

/-! ### Frames on the link -/

/-- `MemWrite` (R36): one exchange whose reply is discarded. In W_TRANSMIT the controller goes on to W_VERIFY
(spec/43_verified_write.md R122), in S_TRANSMIT the sub-operation ends (R135); a frame sent in any other phase, which no
step of the controller does, leaves the phase (entry 1). -/
def sendWrite (f : Frame) : State → State :=
  exchange f fun _ s =>
    match s.phase with
    | .wTransmit => State.goto .wVerify s
    | .sTransmit => finish .ok s
    | _ => s

/-- `MemRead` (R37): one exchange whose reply goes to `rbf`. In W_VERIFY the controller goes on to W_COMPARE (R123), in
R_EXCHANGE to R_DECODE (spec/42_read.md R105); in any other phase the phase stays (entry 1). -/
def sendRead (r : Reg) : State → State :=
  exchange (rdreq r.addr) fun reply s =>
    let s := { s with rbf := reply }
    match s.phase with
    | .wVerify => State.goto .wCompare s
    | .rExchange => State.goto .rDecode s
    | _ => s

/-! ### The command port -/

/-- The acceptance of a command (R20): only in IDLE; the host then withdraws the word (entry 5) and the command starts.
While busy the port accepts nothing and nothing changes (R20, U9; entry 6). -/
def accept (start : State → State) (s : State) : Host.Outcome State Fault Refusal :=
  match s.phase with
  | .idle => .next (start { s with cmdValid := false })
  | _ => .next s

/-- The start of a read of one register (spec/42_read.md R105). -/
def startRead (op : Op) (r : Reg) (s : State) : State := State.goto .rExchange { s with op := op, cur := r.addr }

/-- The start of a verified write of one register (spec/43_verified_write.md R120). -/
def startWrite (op : Op) (r : Reg) (s : State) : State := State.goto .wEncode { s with op := op, cur := r.addr }

/-- The start of the plain STATUS write (R135). -/
def startStatusWrite (op : Op) (s : State) : State := State.goto .sEncode { s with op := op, cur := Reg.addr .status }

/-- The start of a bulk command (R141, R142, R144). -/
def startBulk (op : Op) (s : State) : State := State.goto .bNext { s with op := op, seq := 0, acc := true }

/-- The host's turn in IDLE when no word is offered: it presents its next word, if it has one, else nothing happens
(R6, R20; entry 5). -/
def hostTurn (s : State) : State :=
  match s.hostQueue with
  | [] => s
  | w :: rest => { s with cmdValid := true, cw := w, hostQueue := rest }

/-! ### Fetch -/

/-- The word the next step executes: the offered command word in IDLE, the encoded frame in the transmit phases, the
read request in the read phases; `none` in a phase that executes no word. A `txf` with bit 15 set, which no run
reaches, is no W frame (entry 16). -/
def fetch (s : State) : Option Code :=
  match s.phase with
  | .idle => if s.cmdValid then some (.command s.cw) else none
  | .wTransmit => if Frame.isWrite s.txf then some (.frame s.txf) else none
  | .sTransmit => if Frame.isWrite s.txf then some (.frame s.txf) else none
  | .wVerify => some (.frame (rdreq s.cur))
  | .rExchange => some (.frame (rdreq s.cur))
  | .wEncode => none
  | .wCompare => none
  | .wBackoff => none
  | .sEncode => none
  | .rDecode => none
  | .bNext => none

end Sys2Proof.Machine
end

