-- ==== Sys2Proof/Machine/Bulk.lean ====
section
/-! DEFINITION. The bulk commands READ_ALL, WRITE_ALL and INIT (spec/44_bulk_and_system.md R141 to R144). -/

namespace Sys2Proof.Machine

/-- READ_ALL (R141). -/
def execReadAll (s : State) : Host.Outcome State Fault Refusal := accept (startBulk .readAll) s

/-- WRITE_ALL (R142). -/
def execWriteAll (s : State) : Host.Outcome State Fault Refusal := accept (startBulk .writeAll) s

/-- INIT (R144): `DEFAULTS` into every cell, then as WRITE_ALL; `err` is not cleared. -/
def execInit (s : State) : Host.Outcome State Fault Refusal :=
  accept (fun s => startBulk .init { s with mirror := Mirror.defaults }) s

end Sys2Proof.Machine
end

