-- ==== Sys2Proof/Machine/Read.lean ====
section
/-! DEFINITION. The commands READ.r (spec/42_read.md). -/

namespace Sys2Proof.Machine

/-- READ.CTRL (R106, R105). -/
def execReadCtrl (s : State) : Host.Outcome State Fault Refusal := accept (startRead .read .ctrl) s

/-- READ.TORQUE (R107, R105). -/
def execReadTorque (s : State) : Host.Outcome State Fault Refusal := accept (startRead .read .torque) s

/-- READ.OFF (R108, R105). -/
def execReadOff (s : State) : Host.Outcome State Fault Refusal := accept (startRead .read .off) s

/-- READ.BLANK (R109, R105). -/
def execReadBlank (s : State) : Host.Outcome State Fault Refusal := accept (startRead .read .blank) s

/-- READ.DECAY (R110, R105). -/
def execReadDecay (s : State) : Host.Outcome State Fault Refusal := accept (startRead .read .decay) s

/-- READ.STALL (R111, R105). -/
def execReadStall (s : State) : Host.Outcome State Fault Refusal := accept (startRead .read .stall) s

/-- READ.DRIVE (R112, R105). -/
def execReadDrive (s : State) : Host.Outcome State Fault Refusal := accept (startRead .read .drive) s

/-- READ.STATUS (R113, R105). -/
def execReadStatus (s : State) : Host.Outcome State Fault Refusal := accept (startRead .read .status) s

end Sys2Proof.Machine
end

