-- ==== Sys2Proof/Machine/ReadFrames.lean ====
section
/-! DEFINITION. The Q frames RD.CTRL to RD.STATUS: each is sent as one exchange (spec/30_encoding.md R52, R59; spec/20_memory.md
R37; spec/40_codec.md R88). -/

namespace Sys2Proof.Machine

/-- RD.CTRL: `MemRead` with the frame `RDREQ(0)` (R88, R37). -/
def execRdCtrl (s : State) : Host.Outcome State Fault Refusal := .next (sendRead .ctrl s)

/-- RD.TORQUE: `MemRead` with the frame `RDREQ(1)` (R88, R37). -/
def execRdTorque (s : State) : Host.Outcome State Fault Refusal := .next (sendRead .torque s)

/-- RD.OFF: `MemRead` with the frame `RDREQ(2)` (R88, R37). -/
def execRdOff (s : State) : Host.Outcome State Fault Refusal := .next (sendRead .off s)

/-- RD.BLANK: `MemRead` with the frame `RDREQ(3)` (R88, R37). -/
def execRdBlank (s : State) : Host.Outcome State Fault Refusal := .next (sendRead .blank s)

/-- RD.DECAY: `MemRead` with the frame `RDREQ(4)` (R88, R37). -/
def execRdDecay (s : State) : Host.Outcome State Fault Refusal := .next (sendRead .decay s)

/-- RD.STALL: `MemRead` with the frame `RDREQ(5)` (R88, R37). -/
def execRdStall (s : State) : Host.Outcome State Fault Refusal := .next (sendRead .stall s)

/-- RD.DRIVE: `MemRead` with the frame `RDREQ(6)` (R88, R37). -/
def execRdDrive (s : State) : Host.Outcome State Fault Refusal := .next (sendRead .drive s)

/-- RD.STATUS: `MemRead` with the frame `RDREQ(7)` (R88, R37). -/
def execRdStatus (s : State) : Host.Outcome State Fault Refusal := .next (sendRead .status s)

end Sys2Proof.Machine
end

