-- ==== Sys2Proof/Machine/Setf.lean ====
section
/-! DEFINITION. The field setter SETF (spec/41_mirror_setf.md). -/

namespace Sys2Proof.Machine

/-- SETF `f`, `v` (R100): the one cell, all 16 bits, and `Done(OK)`; no sequencing state is written. -/
def execSetf (f : Field) (v : BitVec 16) (s : State) : Host.Outcome State Fault Refusal :=
  accept (fun s => done .ok { s with mirror := s.mirror.set f v }) s

end Sys2Proof.Machine
end

