-- ==== Sys2Proof/Machine/System.lean ====
section
/-! DEFINITION. ENABLE, DISABLE, GET_STATUS, CLEAR_STATUS and CLEAR_ERROR (spec/44_bulk_and_system.md R145 to R150). -/

namespace Sys2Proof.Machine

/-- ENABLE (R145): ENBL set to 1, then a verified write of CTRL. -/
def execEnable (s : State) : Host.Outcome State Fault Refusal :=
  accept (fun s => startWrite .enable .ctrl { s with mirror := s.mirror.setEnbl 1 }) s

/-- DISABLE (R146): ENBL set to 0, then a verified write of CTRL. -/
def execDisable (s : State) : Host.Outcome State Fault Refusal :=
  accept (fun s => startWrite .disable .ctrl { s with mirror := s.mirror.setEnbl 0 }) s

/-- GET_STATUS (R147): the read of STATUS. -/
def execGetStatus (s : State) : Host.Outcome State Fault Refusal := accept (startRead .getStatus .status) s

/-- CLEAR_STATUS (R148): the eight STATUS cells zero, then the plain STATUS write. -/
def execClearStatus (s : State) : Host.Outcome State Fault Refusal :=
  accept (fun s => startStatusWrite .clearStatus { s with mirror := s.mirror.clearStatus }) s

/-- CLEAR_ERROR (R150): `err <- 0` and `Done(OK)`, the return from an exhausted write (R163). -/
def execClearError (s : State) : Host.Outcome State Fault Refusal := accept (fun s => done .ok (returnFromError s)) s

end Sys2Proof.Machine
end

