-- ==== Sys2Proof/Machine/Write.lean ====
section
/-! DEFINITION. The commands WRITE.r: seven verified writes and the plain STATUS write (spec/43_verified_write.md). -/

namespace Sys2Proof.Machine

/-- WRITE.CTRL (R131, R120). -/
def execWriteCtrl (s : State) : Host.Outcome State Fault Refusal := accept (startWrite .write .ctrl) s

/-- WRITE.TORQUE (R132, R120). -/
def execWriteTorque (s : State) : Host.Outcome State Fault Refusal := accept (startWrite .write .torque) s

/-- WRITE.OFF (R133, R120). -/
def execWriteOff (s : State) : Host.Outcome State Fault Refusal := accept (startWrite .write .off) s

/-- WRITE.BLANK (R134, R120). -/
def execWriteBlank (s : State) : Host.Outcome State Fault Refusal := accept (startWrite .write .blank) s

/-- WRITE.DECAY (R136, R120). -/
def execWriteDecay (s : State) : Host.Outcome State Fault Refusal := accept (startWrite .write .decay) s

/-- WRITE.STALL (R137, R120). -/
def execWriteStall (s : State) : Host.Outcome State Fault Refusal := accept (startWrite .write .stall) s

/-- WRITE.DRIVE (R138, R120). -/
def execWriteDrive (s : State) : Host.Outcome State Fault Refusal := accept (startWrite .write .drive) s

/-- WRITE.STATUS, the plain write (R135). -/
def execWriteStatus (s : State) : Host.Outcome State Fault Refusal := accept (startStatusWrite .write) s

end Sys2Proof.Machine
end

