-- ==== Sys2Proof/Machine/WriteFrames.lean ====
section
/-! DEFINITION. The W frames WR.CTRL to WR.STATUS: each is sent as one exchange (spec/30_encoding.md R51, R59; spec/20_memory.md
R36; spec/40_codec.md R72 to R79). -/

namespace Sys2Proof.Machine

/-- WR.CTRL: `MemWrite` of the frame `ENC_CTRL` (R72, R36). -/
def execWrCtrl (c : CtrlCells) (s : State) : Host.Outcome State Fault Refusal := .next (sendWrite c.enc s)

/-- WR.TORQUE: `MemWrite` of the frame `ENC_TORQUE` (R73, R36). -/
def execWrTorque (c : TorqueCells) (s : State) : Host.Outcome State Fault Refusal := .next (sendWrite c.enc s)

/-- WR.OFF: `MemWrite` of the frame `ENC_OFF` (R74, R36). -/
def execWrOff (c : OffCells) (s : State) : Host.Outcome State Fault Refusal := .next (sendWrite c.enc s)

/-- WR.BLANK: `MemWrite` of the frame `ENC_BLANK` (R75, R36). -/
def execWrBlank (c : BlankCells) (s : State) : Host.Outcome State Fault Refusal := .next (sendWrite c.enc s)

/-- WR.DECAY: `MemWrite` of the frame `ENC_DECAY` (R76, R36). -/
def execWrDecay (c : DecayCells) (s : State) : Host.Outcome State Fault Refusal := .next (sendWrite c.enc s)

/-- WR.STALL: `MemWrite` of the frame `ENC_STALL` (R77, R36). -/
def execWrStall (c : StallCells) (s : State) : Host.Outcome State Fault Refusal := .next (sendWrite c.enc s)

/-- WR.DRIVE: `MemWrite` of the frame `ENC_DRIVE` (R78, R36). -/
def execWrDrive (c : DriveCells) (s : State) : Host.Outcome State Fault Refusal := .next (sendWrite c.enc s)

/-- WR.STATUS: `MemWrite` of the frame `ENC_STATUS` (R79, R36). -/
def execWrStatus (c : StatusCells) (s : State) : Host.Outcome State Fault Refusal := .next (sendWrite c.enc s)

end Sys2Proof.Machine
end

