-- ==== Sys2Proof/Machine/Dispatch.lean ====
section
/-! DEFINITION. The dispatch: one arm per instruction, one meaning per arm. -/

namespace Sys2Proof.Machine

def exec (i : Instr) (s : State) : Host.Outcome State Fault Refusal :=
  match i with
  | .wrCtrl c => Sys2Proof.Machine.execWrCtrl c s
  | .wrTorque c => Sys2Proof.Machine.execWrTorque c s
  | .wrOff c => Sys2Proof.Machine.execWrOff c s
  | .wrBlank c => Sys2Proof.Machine.execWrBlank c s
  | .wrDecay c => Sys2Proof.Machine.execWrDecay c s
  | .wrStall c => Sys2Proof.Machine.execWrStall c s
  | .wrDrive c => Sys2Proof.Machine.execWrDrive c s
  | .wrStatus c => Sys2Proof.Machine.execWrStatus c s
  | .rdCtrl => Sys2Proof.Machine.execRdCtrl s
  | .rdTorque => Sys2Proof.Machine.execRdTorque s
  | .rdOff => Sys2Proof.Machine.execRdOff s
  | .rdBlank => Sys2Proof.Machine.execRdBlank s
  | .rdDecay => Sys2Proof.Machine.execRdDecay s
  | .rdStall => Sys2Proof.Machine.execRdStall s
  | .rdDrive => Sys2Proof.Machine.execRdDrive s
  | .rdStatus => Sys2Proof.Machine.execRdStatus s
  | .setf f v => Sys2Proof.Machine.execSetf f v s
  | .readCtrl => Sys2Proof.Machine.execReadCtrl s
  | .readTorque => Sys2Proof.Machine.execReadTorque s
  | .readOff => Sys2Proof.Machine.execReadOff s
  | .readBlank => Sys2Proof.Machine.execReadBlank s
  | .readDecay => Sys2Proof.Machine.execReadDecay s
  | .readStall => Sys2Proof.Machine.execReadStall s
  | .readDrive => Sys2Proof.Machine.execReadDrive s
  | .readStatus => Sys2Proof.Machine.execReadStatus s
  | .writeCtrl => Sys2Proof.Machine.execWriteCtrl s
  | .writeTorque => Sys2Proof.Machine.execWriteTorque s
  | .writeOff => Sys2Proof.Machine.execWriteOff s
  | .writeBlank => Sys2Proof.Machine.execWriteBlank s
  | .writeDecay => Sys2Proof.Machine.execWriteDecay s
  | .writeStall => Sys2Proof.Machine.execWriteStall s
  | .writeDrive => Sys2Proof.Machine.execWriteDrive s
  | .writeStatus => Sys2Proof.Machine.execWriteStatus s
  | .readAll => Sys2Proof.Machine.execReadAll s
  | .writeAll => Sys2Proof.Machine.execWriteAll s
  | .init => Sys2Proof.Machine.execInit s
  | .enable => Sys2Proof.Machine.execEnable s
  | .disable => Sys2Proof.Machine.execDisable s
  | .getStatus => Sys2Proof.Machine.execGetStatus s
  | .clearStatus => Sys2Proof.Machine.execClearStatus s
  | .clearError => Sys2Proof.Machine.execClearError s

end Sys2Proof.Machine
end

