-- ==== Sys2Proof/Machine/Phases.lean ====
section
/-! DEFINITION. The controller's internal phases, the steps that execute no word (spec/10_state.md R18; the transition
table of spec/43_verified_write.md R139; spec/42_read.md R105; spec/44_bulk_and_system.md R140). -/

namespace Sys2Proof.Machine

/-- W_ENCODE (R121): the frame is encoded once per write, and the first attempt is number 1. -/
def encodePhase (s : State) : State :=
  State.goto .wTransmit { s with txf := s.mirror.encode (Reg.ofAddr s.cur), att := 1 }

/-- W_COMPARE (R124 to R126). -/
def comparePhase (s : State) : State :=
  if payloadsMatch s.txf s.rbf then finish .ok s
  else if s.att < Config.maxAttempts then State.goto .wBackoff s
  else raiseWriteExhausted s

/-- W_BACKOFF (R127): the delay, recorded when it ends, then the increment; a delay that never ends is never left (R46; entry 3). -/
def backoffPhase (s : State) : State :=
  match s.takeDelay with
  | none => s
  | some s' => State.goto .wTransmit (State.record [.delay s.att.toNat] { s' with att := s.att + 1 })

/-- S_ENCODE (R135). -/
def statusEncodePhase (s : State) : State := State.goto .sTransmit { s with txf := s.mirror.encode .status }

/-- R_DECODE (R105): every cell of the register is overwritten from the reply. -/
def readDecodePhase (s : State) : State :=
  finish .ok { s with mirror := s.mirror.storeReply (Reg.ofAddr s.cur) s.rbf }

/-- B_NEXT (R140): the completion after the eighth register, else the next register in address order. -/
def bulkNextPhase (s : State) : State :=
  if s.seq = 8 then done s.bulkResult s
  else
    let s' := { s with cur := s.seq.setWidth 3, seq := s.seq + 1 }
    if s.op = .readAll then State.goto .rExchange s'
    else if s'.cur = 7 then State.goto .sEncode s'
    else State.goto .wEncode s'

/-- The step of a phase that fetches no word. In a transmit phase that is a `txf` which is no W frame: it is sent as it
stands (R122, R135; entry 16). The read phases always fetch their read request; their arms say the same exchange. -/
def advance (s : State) : State :=
  match s.phase with
  | .idle => hostTurn s
  | .wEncode => encodePhase s
  | .wCompare => comparePhase s
  | .wBackoff => backoffPhase s
  | .sEncode => statusEncodePhase s
  | .rDecode => readDecodePhase s
  | .bNext => bulkNextPhase s
  | .wTransmit => sendWrite s.txf s
  | .sTransmit => sendWrite s.txf s
  | .wVerify => sendRead (Reg.ofAddr s.cur) s
  | .rExchange => sendRead (Reg.ofAddr s.cur) s

end Sys2Proof.Machine
end

