-- ==== Sys2Proof/Machine/Step.lean ====
section
/-! DEFINITION. The step: fetch a word and execute the instruction it decodes to, or, in a phase that fetches none, the
phase's own step (spec/10_state.md R17, R18, R20). -/

namespace Sys2Proof.Machine

/-- A fetched word that spells no instruction: a command word is refused (spec/30_encoding.md R65); a frame in `txf`
that the block never encodes is sent as it stands (spec/43_verified_write.md R122; entry 16). -/
def runUndecoded (c : Code) (s : State) : Host.Outcome State Fault Refusal :=
  match c with
  | .command w => .refused (.illegalCommandWord w)
  | .frame f => .next (sendWrite f s)

/-- One step of the machine. -/
def step (s : State) : Host.Outcome State Fault Refusal :=
  match fetch s with
  | none => .next (advance s)
  | some c =>
    match decode c with
    | some i => exec i s
    | none => runUndecoded c s

/-- The state in which the next step fetches a given word (entry 11): a command word is offered on the port in IDLE; a
W frame stands in `txf` in the transmit phase of its register; a Q frame is what R_EXCHANGE sends for its address. -/
def State.withFetchWord (s : State) (nbits w : Nat) : State :=
  if nbits = 32 then { s with phase := .idle, cmdValid := true, cw := BitVec.ofNat 32 w }
  else
    let f : Frame := BitVec.ofNat 16 w
    if Frame.isWrite f then
      { s with phase := if Frame.address f = 7 then .sTransmit else .wTransmit, txf := f }
    else { s with phase := .rExchange, cur := Frame.address f }

end Sys2Proof.Machine
end

