-- ==== Sys2Proof/Safety.lean ====
section
/-! DEFINITION. The terms the statements use: what a run answers, the events of an exchange and of a verified write, the
legal attempts of one write, the fit of the mirror, and the controller's invariant. -/

namespace Sys2Proof.Machine

/-- `k` steps of the machine. -/
def steps (k : Nat) (s : State) : Host.Outcome State Fault Refusal := Host.Core.run Sys2Proof.core k s

/-- An outcome seen through a function of its next state. -/
def mapNext {α β : Type} (f : α → β) : Host.Outcome α Fault Refusal → Host.Outcome β Fault Refusal
  | .next s => .next (f s)
  | .fault r => .fault r
  | .refused r => .refused r

/-! ### Environments -/

/-- No scripted exchange and no delay hangs (R46): the Transport answers every exchange, with any reply (R45). -/
def State.neverHangs (s : State) : Prop := (∀ a ∈ s.transport, a ≠ .never) ∧ s.delayHangsAfter = none

/-- The port and the host's queue replaced (R20). -/
def State.withPort (valid : Bool) (w : CommandWord) (queue : List CommandWord) (s : State) : State :=
  { s with cmdValid := valid, cw := w, hostQueue := queue }

/-- The state with the port and the host's queue blanked: two states equal after it differ at most there (R20). -/
def State.offPort (s : State) : State := s.withPort false 0 []

/-! ### Events -/

/-- The events of one exchange: `CS(1)`, `XCHG(out, in)`, `CS(0)` (R33). -/
def exchangeEvents (out reply : Frame) : List Event := [.cs true, .xchg out reply, .cs false]

/-- The events of one attempt of a verified write of the register at `a`: the write frame, then the read request
(R122, R123). A pair holds the two replies. -/
def attemptEvents (f : Frame) (a : Addr) (p : Frame × Frame) : List Event :=
  exchangeEvents f p.1 ++ exchangeEvents (rdreq a) p.2

/-- The events of the attempts from number `k` on, with `DELAY(k)` after each failed attempt but the last (R127, R128). -/
def writeEvents (f : Frame) (a : Addr) : Nat → List (Frame × Frame) → List Event
  | _, [] => []
  | _, [p] => attemptEvents f a p
  | k, p :: ps => attemptEvents f a p ++ [.delay k] ++ writeEvents f a (k + 1) ps

/-- The replies the next `k` exchanges get, and the state with those answers taken; `none` where one of them never
returns. -/
def State.takeReplies : Nat → State → Option (List Frame × State)
  | 0, s => some ([], s)
  | k + 1, s =>
    match s.takeAnswer with
    | none => none
    | some (q, s1) => (State.takeReplies k s1).map fun p => (q :: p.1, p.2)

/-- The replies the next `n` attempts get, two exchanges each, and the state with those answers taken. -/
def State.takePairs : Nat → State → Option (List (Frame × Frame) × State)
  | 0, s => some ([], s)
  | n + 1, s =>
    match State.takeReplies 2 s with
    | some ([w, q], s2) => (State.takePairs n s2).map fun p => ((w, q) :: p.1, p.2)
    | _ => none

/-- The state with the next `k` waits of the delay service taken; `none` where one of them never ends. -/
def State.takeDelays : Nat → State → Option State
  | 0, s => some s
  | k + 1, s => s.takeDelay.bind (State.takeDelays k)

/-- The readback of the last attempt. -/
def lastReadback (ps : List (Frame × Frame)) : Frame := ((ps.map Prod.snd).getLast?).getD 0

/-- The attempts one verified write of frame `f` makes (R124 to R128): one to ten, all but the last mismatched, and the
last one matched or the tenth. -/
def legalAttempts (f : Frame) (ps : List (Frame × Frame)) : Prop :=
  1 ≤ ps.length ∧ ps.length ≤ 10 ∧ (∀ p ∈ ps.dropLast, payloadsMatch f p.2 = false) ∧
    (payloadsMatch f (lastReadback ps) = true ∨ ps.length = 10)

/-- Whether the last readback matched the frame. -/
def attemptsMatched (f : Frame) (ps : List (Frame × Frame)) : Bool := payloadsMatch f (lastReadback ps)

/-- The result a success flag stands for (R21). -/
def Result.ofMatched (b : Bool) : Result := if b then .ok else .fail

/-- How many exchanges a history holds. -/
def exchangeCount (h : List Event) : Nat := h.countP fun e => match e with | .xchg _ _ => true | _ => false

/-- The arguments of the delays of a history, in order. -/
def delayArgs (h : List Event) : List Nat := h.filterMap fun e => match e with | .delay k => some k | _ => none

/-- Whether a frame is one of the sixteen kinds the block sends (R59). -/
def isSentFrame (f : Frame) : Bool := (decode (.frame f)).isSome

/-! ### Commands -/

/-- The seven registers whose writes are verified (R120), in bulk order. -/
def verifiedRegs : List Reg := [.ctrl, .torque, .off, .blank, .decay, .stall, .drive]

/-- The events of WRITE_ALL and INIT before their completion: the attempts `ps r` of each verified register, then the one
exchange of the STATUS write (R142). -/
def bulkWriteEvents (m : Mirror) (ps : Reg → List (Frame × Frame)) (q : Frame) : List Event :=
  (verifiedRegs.flatMap fun r => writeEvents (m.encode r) r.addr 1 (ps r)) ++ exchangeEvents (m.encode .status) q

/-- Whether every verified register of a bulk write matched (R140, R142). -/
def bulkMatched (m : Mirror) (ps : Reg → List (Frame × Frame)) : Bool :=
  verifiedRegs.all fun r => attemptsMatched (m.encode r) (ps r)

/-- What the host can observe of the block: the cells, `err` (R22), the phase (and so `busy`, R20), the select and the
history. -/
structure Observation where
  mirror : Mirror
  err : Bool
  phase : Phase
  select : Bool
  history : List Event
deriving DecidableEq, Repr

/-- The observation of a state. -/
def State.observe (s : State) : Observation := ⟨s.mirror, s.err, s.phase, s.select, s.history⟩

/-- Two states that differ at most in the sequencing registers R26 leaves unspecified in IDLE. -/
def State.sameButSequencing (s s' : State) : Prop :=
  s' = { s with op := s'.op, cur := s'.cur, att := s'.att, txf := s'.txf, rbf := s'.rbf, seq := s'.seq, acc := s'.acc }

/-- The state with the sequencing registers that are written before they are next read set to fixed values: what R19 says of
IDLE, said of every phase. `seq` and `acc` are read inside a bulk command only. -/
def State.blankUnread (s : State) : State :=
  let t := if s.op.isBulk then s else { s with seq := 0, acc := false }
  match s.phase with
  | .idle => { s with op := .setf, cur := 0, att := 0, txf := 0, rbf := 0, seq := 0, acc := false }
  | .bNext => { s with cur := 0, att := 0, txf := 0, rbf := 0 }
  | .wEncode => { t with att := 0, txf := 0, rbf := 0 }
  | .wTransmit => { t with rbf := 0 }
  | .wVerify => { t with rbf := 0 }
  | .wCompare => t
  | .wBackoff => { t with rbf := 0 }
  | .sEncode => { t with cur := 0, att := 0, txf := 0, rbf := 0 }
  | .sTransmit => { t with cur := 0, att := 0, rbf := 0 }
  | .rExchange => { t with att := 0, txf := 0, rbf := 0 }
  | .rDecode => { t with att := 0, txf := 0 }

/-- The commands that are one verified write: their `op`, the register written, and the mirror they write it from
(R120, R145, R146). -/
def verifiedWriteOf (m : Mirror) : Instr → Option (Op × Reg × Mirror)
  | .writeCtrl => some (.write, .ctrl, m)
  | .writeTorque => some (.write, .torque, m)
  | .writeOff => some (.write, .off, m)
  | .writeBlank => some (.write, .blank, m)
  | .writeDecay => some (.write, .decay, m)
  | .writeStall => some (.write, .stall, m)
  | .writeDrive => some (.write, .drive, m)
  | .enable => some (.enable, .ctrl, m.set .ctrlEnbl 1)
  | .disable => some (.disable, .ctrl, m.set .ctrlEnbl 0)
  | _ => none

/-- The commands that are one plain STATUS write, likewise (R135, R148). -/
def statusWriteOf (m : Mirror) : Instr → Option (Op × Mirror)
  | .writeStatus => some (.write, m)
  | .clearStatus => some (.clearStatus, { m with status := ⟨0, 0, 0, 0, 0, 0, 0, 0⟩ })
  | _ => none

/-- The commands that are one read, likewise (R105, R147). -/
def readOf : Instr → Option (Op × Reg)
  | .readCtrl => some (.read, .ctrl)
  | .readTorque => some (.read, .torque)
  | .readOff => some (.read, .off)
  | .readBlank => some (.read, .blank)
  | .readDecay => some (.read, .decay)
  | .readStall => some (.read, .stall)
  | .readDrive => some (.read, .drive)
  | .readStatus => some (.read, .status)
  | .getStatus => some (.getStatus, .status)
  | _ => none

/-- The commands that push all eight registers, likewise (R142, R144). -/
def bulkWriteOf (m : Mirror) : Instr → Option (Op × Mirror)
  | .writeAll => some (.writeAll, m)
  | .init => some (.init, Mirror.defaults)
  | _ => none

/-! ### Invariants -/

/-- Every mirror cell fits its field (R15). -/
def Mirror.fits (m : Mirror) : Prop := ∀ f : Field, Field.fits f (m.get f) = true

/-- The phases in which a frame is on its way to the chip and back (R121 to R127). -/
def Phase.isAttempt : Phase → Bool
  | .wTransmit | .wVerify | .wCompare | .wBackoff => true
  | _ => false

/-- The phases of a verified write (R18). -/
def Phase.isVerifiedWrite : Phase → Bool
  | .wEncode | .wTransmit | .wVerify | .wCompare | .wBackoff => true
  | _ => false

/-- The phases of the plain STATUS write (R18). -/
def Phase.isStatusWrite : Phase → Bool
  | .sEncode | .sTransmit => true
  | _ => false

/-- The phases of a read (R18). -/
def Phase.isRead : Phase → Bool
  | .rExchange | .rDecode => true
  | _ => false

/-- The phases that make an exchange (R18). -/
def Phase.isExchange : Phase → Bool
  | .wTransmit | .wVerify | .sTransmit | .rExchange => true
  | _ => false

/-- The controller's invariant: what the sequencing state is worth in each phase (R17 to R19, R121, R139, R140). -/
structure ControllerInv (s : State) : Prop where
  /-- `att` stays in 1..10, and a backoff follows one of the first nine attempts (R19, R127). -/
  att_range : s.phase.isAttempt = true → 1 ≤ s.att.toNat ∧ s.att.toNat ≤ 10
  att_backoff : s.phase = .wBackoff → s.att.toNat ≤ 9
  /-- The frame in `txf` is the mirror's register throughout the attempts (R121, R128). -/
  frame_encoded : s.phase.isAttempt = true → s.txf = s.mirror.encode (Reg.ofAddr s.cur)
  status_encoded : s.phase = .sTransmit → s.txf = s.mirror.encode .status
  /-- STATUS is never verified (R120, R135). -/
  verified_cur : s.phase.isVerifiedWrite = true → s.cur ≠ 7
  status_cur : s.phase.isStatusWrite = true → s.cur = 7
  /-- `seq` stays in 0..8 and, inside a register of a bulk command, is one past `cur` (R17, R140). -/
  seq_range : s.seq.toNat ≤ 8
  seq_cur : s.op.isBulk = true → s.phase ≠ .idle → s.phase ≠ .bNext → s.seq.toNat = s.cur.toNat + 1
  /-- Which commands have which phases (R139, R140). -/
  op_bulk : s.phase = .bNext → s.op.isBulk = true
  op_read : s.phase.isRead = true → s.op = .read ∨ s.op = .getStatus ∨ s.op = .readAll
  op_write : s.phase.isVerifiedWrite = true →
    s.op = .write ∨ s.op = .enable ∨ s.op = .disable ∨ s.op = .writeAll ∨ s.op = .init
  op_status : s.phase.isStatusWrite = true → s.op = .write ∨ s.op = .clearStatus ∨ s.op = .writeAll ∨ s.op = .init
  /-- The select is asserted only while an exchange is in flight (R33). -/
  select_exchange : s.select = true → s.phase.isExchange = true

end Sys2Proof.Machine
end

