-- ==== Sys2Proof/Certificates/Slice0/Obligations.lean ====
section
/-! DEFINITION. The statements for the provers. Each docstring names the rules of spec/ it rests on; where the spec marks a
point as its own decision (D<n> of spec/92_eei_decisions.md) or the model chose (entry <n> of notes/assumptions/), it says so. -/

open Sys2Proof Sys2Proof.Machine

/-! ### Encoding -/

/-- Decoding an encoded well-formed instruction gives it back, for every instruction with every operand. The command word's
layout is D13's, the addresses and offsets D2's and D3's (entries 13, 14). -/
def Obligations.DecodeOfEncode : Prop :=
  ∀ i : Instr, i.wellFormed = true → decode (encode i) = some i

/-- A word that decodes has only that one spelling, and what it decodes to is well-formed (D2, D3, D13). -/
def Obligations.EncodeOfDecode : Prop :=
  ∀ (c : Code) (i : Instr), decode c = some i → i.wellFormed = true ∧ encode i = c

/-- A word decodes to an instruction exactly if it spells that instruction's row of the opcode table: the masks and
patterns of R59 and R62 (D13, D4). -/
def Obligations.DecodedWordsAreTheTableRows : Prop :=
  ∀ c : Code, (∀ i, decode c = some i → i.row.spelledBy c = true) ∧
    (∀ i : Instr, i.row.spelledBy c = true → ∃ j, decode c = some j ∧ j.row = i.row)

/-- A few words of the spec's own tables, one or two of each family, decode to the instructions they stand for
(spec/95_test_vectors.md S1, E18, Q1, K1, K4, K5, K6). -/
def Obligations.SampleWordsDecode : Prop :=
  decode (.frame 0x0E29) = some (.wrCtrl ⟨3, 2, 0, 5, 0, 0, 1⟩) ∧
  decode (.frame 0x11BA) = some (.wrTorque ⟨1, 0xBA⟩) ∧
  decode (.frame 0xC000) = some .rdDecay ∧
  decode (.command 0x10030005) = some (.setf .ctrlMode 5) ∧
  decode (.command 0x27000000) = some .readStatus ∧
  decode (.command 0x36000000) = some .writeDrive ∧
  decode (.command 0x60000000) = some .init ∧
  decode (.command 0xB0000000) = some .clearError

/-- The illegal command words are those R65 lists, and no others: an operation code without a command, a bit set in a
place of zeros, a register or a field operand in a command that has none (D13, D14). -/
def Obligations.IllegalCommandWords : Prop :=
  ∀ w : CommandWord,
    let op := (w.extractLsb' 28 4).toNat
    decode (.command w) = none ↔
      (op = 0 ∨ 0xC ≤ op) ∨ w.getLsbD 27 = true ∨ w.extractLsb' 21 3 ≠ 0 ∨
      (w.extractLsb' 24 3 ≠ 0 ∧ op ≠ 2 ∧ op ≠ 3) ∨
      ((w.extractLsb' 16 5 ≠ 0 ∨ w.extractLsb' 0 16 ≠ 0) ∧ op ≠ 1)

/-! ### Codec -/

/-- R70, over the offsets and widths of the field table R12: the frame is the OR of the address and every field masked to
its width at its offset, in whatever order; it is also their sum, the fields being disjoint; a payload bit no field covers
is 0; and no cell of another register matters. (That the offsets of seven registers are what they are is D3's, entry 14,
and not claimed here.) -/
def Obligations.EncodeLaw : Prop :=
  ∀ (m : Mirror) (r : Reg),
    (∀ fs : List Field, fs.Perm r.fields → m.encode r = fs.foldl
      (fun a f => a ||| ((m.get f &&& BitVec.ofNat 16 (2 ^ f.width - 1)) <<< f.lo)) (r.addr.setWidth 16 <<< 12)) ∧
    (m.encode r).toNat =
      4096 * r.addr.toNat + (r.fields.map fun f => (m.get f).toNat % 2 ^ f.width * 2 ^ f.lo).sum ∧
    (∀ i, i < 12 → (∀ f : Field, f.reg = r → ¬(f.lo ≤ i ∧ i < f.lo + f.width)) → (m.encode r).getLsbD i = false) ∧
    (∀ m' : Mirror, (∀ f : Field, f.reg = r → m'.get f = m.get f) → m'.encode r = m.encode r)

/-- R71, over the offsets and widths of the field table R12: every reply decodes; each field gets its bits of the reply,
shifted down and masked, a value below `2^w`; the top nibble and the reserved payload bits are ignored. No cell of another
register changes (spec/42_read.md). (The offsets themselves are D3's, entry 14, and not claimed here.) -/
def Obligations.DecodeLaw : Prop :=
  ∀ (m : Mirror) (r : Reg) (q : Frame),
    (∀ f : Field, f.reg = r →
      (m.storeReply r q).get f = (q >>> f.lo) &&& BitVec.ofNat 16 (2 ^ f.width - 1) ∧
      ((m.storeReply r q).get f).toNat < 2 ^ f.width) ∧
    (∀ f : Field, f.reg ≠ r → (m.storeReply r q).get f = m.get f) ∧
    (∀ q' : Frame, q' &&& 0x0FFF &&& ~~~r.reserved = q &&& 0x0FFF &&& ~~~r.reserved →
      m.storeReply r q' = m.storeReply r q)

/-- The codec's round trips (spec/40_codec.md section 5; D3, D4): decoding an encoded register gives every cell's low bits
back, the cell itself where it fits; encoding a decoded reply gives its payload with the reserved bits cleared, under the
register's own address. -/
def Obligations.CodecRoundTrip : Prop :=
  ∀ (m : Mirror) (r : Reg),
    (∀ f : Field, f.reg = r → ((m.storeReply r (m.encode r)).get f).toNat = (m.get f).toNat % 2 ^ f.width) ∧
    ((∀ f : Field, f.reg = r → Field.fits f (m.get f) = true) → m.storeReply r (m.encode r) = m) ∧
    (∀ q : Frame, (m.storeReply r q).encode r = (r.addr.setWidth 16 <<< 12) ||| (q &&& 0x0FFF &&& ~~~r.reserved))

/-- R90: whatever the cells hold, an encoded write frame has its register's address in bits 14:12 and bit 15 clear; a
read request has bit 15 set, the address in bits 14:12 and zeros below. -/
def Obligations.FrameInvariants : Prop :=
  (∀ (m : Mirror) (r : Reg), (m.encode r).extractLsb' 12 3 = r.addr ∧ (m.encode r).getLsbD 15 = false) ∧
  (∀ a : Addr, (rdreq a).getLsbD 15 = true ∧ (rdreq a).extractLsb' 12 3 = a ∧ (rdreq a).extractLsb' 0 12 = 0)

/-- R88: the read request of an address, with all its eight values. -/
def Obligations.ReadRequestFrames : Prop :=
  (∀ a : Addr, rdreq a = 0x8000 ||| (a.setWidth 16 <<< 12) ∧ rdreq a &&& 0x0FFF = 0) ∧
  (List.range 8).map (fun a => rdreq (BitVec.ofNat 3 a)) =
    [0x8000, 0x9000, 0xA000, 0xB000, 0xC000, 0xD000, 0xE000, 0xF000]

/-- The reserved payload bits (spec/70_reset_and_hazards.md R189, D4, entry 14): encode sends zeros there, so a readback
with a one in any of them never matches the frame sent. -/
def Obligations.ReservedBitsDefeatTheCompare : Prop :=
  ∀ (m : Mirror) (r : Reg) (q : Frame),
    m.encode r &&& r.reserved = 0 ∧ (q &&& r.reserved ≠ 0 → payloadsMatch (m.encode r) q = false)

/-- Two replies that agree in their low 12 bits are decoded and compared alike (spec/30_encoding.md section 1, format P;
D11). -/
def Obligations.ReplyTopNibbleIgnored : Prop :=
  ∀ (m : Mirror) (r : Reg) (f q q' : Frame), q.extractLsb' 0 12 = q'.extractLsb' 0 12 →
    m.storeReply r q = m.storeReply r q' ∧ payloadsMatch f q = payloadsMatch f q'

/-! ### The step and the command port -/

/-- A step runs the decoded instruction: the command word offered in IDLE, the encoded frame in a transmit phase, the read
request of `cur` in a read phase; the step adds nothing around it (entries 1, 11). -/
def Obligations.StepRunsDecodedInstruction : Prop :=
  (∀ (s : State) (i : Instr), s.phase = .idle → s.cmdValid = true → decode (.command s.cw) = some i →
    step s = exec i s) ∧
  (∀ (s : State) (i : Instr), s.phase = .wTransmit ∨ s.phase = .sTransmit → s.txf.getLsbD 15 = false →
    decode (.frame s.txf) = some i → step s = exec i s) ∧
  (∀ s : State, s.phase = .wVerify ∨ s.phase = .rExchange → step s = exec (Instr.rdOf (Reg.ofAddr s.cur)) s)

/-- A word that spells no command is refused by its name, with no next state (spec/30_encoding.md section 2, D14, entry 7). -/
def Obligations.IllegalWordRefused : Prop :=
  ∀ s : State, s.phase = .idle → s.cmdValid = true → decode (.command s.cw) = none →
    step s = .refused (.illegalCommandWord s.cw)

/-- IDLE with no word offered: the host presents its next word, if it has one, and otherwise nothing happens. The host's
queue is the model's own (entry 5). -/
def Obligations.IdlePortTurn : Prop :=
  ∀ s : State, s.phase = .idle → s.cmdValid = false →
    (s.hostQueue = [] → step s = .next s) ∧
    (∀ w rest, s.hostQueue = w :: rest →
      step s = .next { s with cmdValid := true, cw := w, hostQueue := rest })

/-- While busy the port is ignored: whatever is offered, the step is the same (spec/10_state.md section 4; D13, entry 6). -/
def Obligations.BusyPortIgnored : Prop :=
  ∀ (s : State) (valid : Bool) (w : CommandWord) (queue : List CommandWord), s.phase ≠ .idle →
    step (s.withPort valid w queue) = mapNext (State.withPort valid w queue) (step s)

/-- A command given while busy is not accepted and changes nothing (spec/10_state.md section 4; D13, entry 6). -/
def Obligations.CommandWhileBusyChangesNothing : Prop :=
  ∀ (i : Instr) (s : State), i.isCommand = true → s.phase ≠ .idle → exec i s = .next s

/-! ### Commands -/

/-- R100: SETF is the word `0x10000000 | fid << 16 | val`; in IDLE it writes the one cell with all 16 bits of its operand
and completes with `Done(OK)`; no other cell, flag, sequencing register or exchange; it is accepted only in IDLE. What
becomes of the port's signals (entry 5) is left open: `State.offPort` blanks them. -/
def Obligations.SetfStoresOneCell : Prop :=
  ∀ (f : Field) (v : BitVec 16),
    encode (.setf f v) = .command (0x10000000 ||| (f.fid.setWidth 32 <<< 16) ||| v.setWidth 32) ∧
    (∀ s : State, s.phase = .idle →
      ∃ (t : State) (m : Mirror), exec (.setf f v) s = .next t ∧ m.get f = v ∧
        (∀ g, g ≠ f → m.get g = s.mirror.get g) ∧
        t.offPort = State.offPort { s with mirror := m, history := s.history ++ [.done .ok] }) ∧
    (∀ s : State, s.phase ≠ .idle → exec (.setf f v) s = .next s)

/-- R105: READ.r is the word `0x20000000 | a << 24`, accepted only in IDLE; two steps after its acceptance it is complete:
one exchange whose reply is in `rbf` in R_DECODE, the reply decoded into every cell of the register, `Done(OK)` whatever the
reply, `err` untouched; inside READ_ALL the decode goes back to B_NEXT. What becomes of the port's signals (entry 5), and of
the sequencing registers once the command is complete (entry 22), is left open. -/
def Obligations.ReadRegisterCompletes : Prop :=
  ∀ r : Reg,
    encode (Instr.readOf r) = .command (0x20000000 ||| (r.addr.setWidth 32 <<< 24)) ∧
    (∀ s : State, s.phase ≠ .idle → exec (Instr.readOf r) s = .next s) ∧
    (∀ (s s1 : State) (q : Frame), s.phase = .idle → s.select = false → s.takeAnswer = some (q, s1) →
      ∃ t v u : State, exec (Instr.readOf r) s = .next t ∧
        t.offPort = State.offPort { s with op := .read, cur := r.addr, phase := .rExchange } ∧
        step t = .next v ∧
        v.offPort = State.offPort { s1 with
          op := .read, cur := r.addr, phase := .rDecode, rbf := q,
          history := s.history ++ exchangeEvents (rdreq r.addr) q } ∧
        step v = .next u ∧
        State.sameButSequencing u.offPort (State.offPort { s1 with
          mirror := s.mirror.storeReply r q,
          history := s.history ++ exchangeEvents (rdreq r.addr) q ++ [.done .ok] })) ∧
    (∀ s : State, s.phase = .rDecode → s.op = .readAll → s.cur = r.addr →
      step s = .next { s with mirror := s.mirror.storeReply r s.rbf, phase := .bNext })

/-- GET_STATUS is accepted in IDLE and two steps later complete, having done what READ.STATUS does and kept its own `op`
(spec/44_bulk_and_system.md section 3; D18, D19, entries 4, 5; what the sequencing registers keep in IDLE is entry 22's). -/
def Obligations.GetStatusReadsStatus : Prop :=
  ∀ (s s1 : State) (q : Frame), s.phase = .idle → s.select = false → s.takeAnswer = some (q, s1) →
    ∃ t, exec .getStatus s = .next t ∧
      t = { s with cmdValid := false, op := .getStatus, cur := 7, phase := .rExchange } ∧
      steps 2 t = .next { s1 with
        mirror := s.mirror.storeReply .status q, cmdValid := false, op := .getStatus, cur := 7, rbf := q,
        history := s.history ++ exchangeEvents 0xF000 q ++ [.done .ok] }

/-- WRITE.STATUS and CLEAR_STATUS: accepted in IDLE, and two steps later complete with exactly one exchange, no readback,
`Done(OK)` whatever the reply; CLEAR_STATUS zeroes the eight cells first, so its frame is 0x7000
(spec/43_verified_write.md section 5; spec/44_bulk_and_system.md section 3; D19, D26, entries 5, 15; what the sequencing registers keep in IDLE is
entry 22's). -/
def Obligations.StatusWritesComplete : Prop :=
  ∀ (i : Instr) (op : Op) (m : Mirror) (s s1 : State) (q : Frame), statusWriteOf s.mirror i = some (op, m) →
    s.phase = .idle → s.select = false → s.takeAnswer = some (q, s1) →
    ∃ t, exec i s = .next t ∧
      t = { s with mirror := m, cmdValid := false, op := op, cur := 7, phase := .sEncode } ∧
      steps 2 t = .next { s1 with
        mirror := m, cmdValid := false, op := op, cur := 7, txf := m.encode .status,
        history := s.history ++ exchangeEvents (m.encode .status) q ++ [.done .ok] } ∧
      (i = .clearStatus → m.encode .status = 0x7000)

/-- The verified writes WRITE.r (r not STATUS), ENABLE and DISABLE run their attempts (spec/43_verified_write.md sections 1
to 3; the attempt count by D6, entry 15; ENABLE and DISABLE by D17; the withdrawn word, `cmdValid`, by entry 5). Accepted in
IDLE; if the replies the Transport gives to `n` attempts are a legal run of attempts of the frame encoded from the mirror, and
the waits between them end, then `4n` steps later the command is complete: the events are those attempts with their delays and
one `Done`, OK if the last readback matched and FAIL otherwise, `err` is set on FAIL and otherwise as it was, and the mirror is
as the command started it. What the sequencing registers keep in IDLE is the model's choice, entry 22. -/
def Obligations.VerifiedWriteRunsItsAttempts : Prop :=
  ∀ (i : Instr) (op : Op) (r : Reg) (m : Mirror) (s s1 s2 : State) (n : Nat) (ps : List (Frame × Frame)),
    verifiedWriteOf s.mirror i = some (op, r, m) → s.phase = .idle → s.select = false →
    s.takePairs n = some (ps, s1) → s1.takeDelays (n - 1) = some s2 → legalAttempts (m.encode r) ps →
    ∃ t, exec i s = .next t ∧
      t = { s with mirror := m, cmdValid := false, op := op, cur := r.addr, phase := .wEncode } ∧
      steps (4 * n) t = .next { s2 with
        mirror := m, cmdValid := false, op := op, cur := r.addr, att := BitVec.ofNat 4 n, txf := m.encode r,
        rbf := lastReadback ps, err := s.err || !attemptsMatched (m.encode r) ps,
        history := s.history ++ writeEvents (m.encode r) r.addr 1 ps ++
          [.done (Result.ofMatched (attemptsMatched (m.encode r) ps))] }

/-- Whatever the Transport answers, as long as it answers, some number of attempts is legal: a verified write always has
its one to ten attempts (spec/20_memory.md section 5, spec/43_verified_write.md section 2; D6, D23). -/
def Obligations.LegalAttemptsExist : Prop :=
  ∀ (s : State) (f : Frame), s.neverHangs → ∃ n ps s1, s.takePairs n = some (ps, s1) ∧ legalAttempts f ps

/-- The counts of spec/43_verified_write.md section 3 (D6, entry 15), of the run itself: WRITE.r, ENABLE or DISABLE that gets
its answers for `n` legal attempts is complete `4n` steps after its acceptance, busy until then, and has appended `2n`
exchanges, the delays 1 to `n-1` in order, whose sum is `n(n-1)/2` units, and one completion; on FAIL, twenty exchanges and
45 units. -/
def Obligations.AttemptCounts : Prop :=
  ∀ (i : Instr) (op : Op) (r : Reg) (m : Mirror) (s s1 s2 : State) (n : Nat) (ps : List (Frame × Frame)),
    verifiedWriteOf s.mirror i = some (op, r, m) → s.phase = .idle → s.select = false →
    s.takePairs n = some (ps, s1) → s1.takeDelays (n - 1) = some s2 → legalAttempts (m.encode r) ps →
    ∃ (t u : State) (es : List Event) (res : Result), exec i s = .next t ∧ steps (4 * n) t = .next u ∧
      u.phase = .idle ∧ (∀ k v, k < 4 * n → steps k t = .next v → v.phase ≠ .idle) ∧
      u.history = s.history ++ es ++ [.done res] ∧ (∀ res', .done res' ∉ es) ∧
      exchangeCount es = 2 * n ∧ delayArgs es = List.range' 1 (n - 1) ∧ 2 * (delayArgs es).sum = n * (n - 1) ∧
      (res = .fail → exchangeCount es = 20 ∧ (delayArgs es).sum = 45)

/-- R141: READ_ALL is the word 0x40000000, accepted only in IDLE; 25 steps after its acceptance it is complete: eight
exchanges with the frames 0x8000 to 0xF000 in that order, each reply decoded into its register, in that order, `err`
untouched, and `Done(OK)`. Each decode comes before the next exchange: a decode step is the one that goes back to B_NEXT. What
becomes of the port's signals (entry 5), and of the sequencing registers once the command is complete (entry 22), is left
open. -/
def Obligations.ReadAllReadsEveryRegister : Prop :=
  encode .readAll = .command 0x40000000 ∧
  (∀ s : State, s.phase ≠ .idle → exec .readAll s = .next s) ∧
  (∀ (s s1 : State) (qs : List Frame), s.phase = .idle → s.select = false → s.takeReplies 8 = some (qs, s1) →
    ∃ t v u : State, exec .readAll s = .next t ∧
      t.offPort = State.offPort { s with op := .readAll, seq := 0, acc := true, phase := .bNext } ∧
      let mirror := (Reg.all.zip qs).foldl (fun m p => m.storeReply p.1 p.2) s.mirror
      let events :=
        (List.zip [0x8000, 0x9000, 0xA000, 0xB000, 0xC000, 0xD000, 0xE000, 0xF000] qs).flatMap
          (fun p => exchangeEvents p.1 p.2)
      steps 24 t = .next v ∧
      v.offPort = State.offPort { s1 with
        mirror := mirror, phase := .bNext, op := .readAll, cur := 7, rbf := (qs.getLast?).getD 0, seq := 8,
        acc := true, history := s.history ++ events } ∧
      step v = .next u ∧
      State.sameButSequencing u.offPort
        (State.offPort { s1 with mirror := mirror, history := s.history ++ events ++ [.done .ok] })) ∧
  (∀ s : State, s.op = .readAll → s.phase = .rExchange → ∀ t, step s = .next t →
    t.phase = .rDecode ∨ t.phase = .rExchange) ∧
  (∀ s : State, s.op = .readAll → s.phase = .rDecode →
    step s = .next { s with mirror := s.mirror.storeReply (Reg.ofAddr s.cur) s.rbf, phase := .bNext })

/-- WRITE_ALL and INIT: accepted in IDLE (INIT with `DEFAULTS` in every cell), and within 291 steps complete, having made,
in address order, a legal run of attempts for each of the seven verified registers and one exchange for STATUS, with FAIL and
`err` set exactly if some register never matched (spec/44_bulk_and_system.md sections 1 to 3; going on after a failure is D15
and the legal attempts D6, entry 15; INIT's defaults D8, D16, entry 9; the withdrawn word, `cmdValid`, entry 5). -/
def Obligations.BulkWriteRunsEveryRegister : Prop :=
  ∀ (i : Instr) (op : Op) (m : Mirror) (s : State), bulkWriteOf s.mirror i = some (op, m) →
    s.phase = .idle → s.select = false → s.neverHangs →
    ∃ t, exec i s = .next t ∧
      t = { s with mirror := m, cmdValid := false, op := op, seq := 0, acc := true, phase := .bNext } ∧
      ∃ (k : Nat) (u : State) (ps : Reg → List (Frame × Frame)) (q : Frame), k ≤ 291 ∧ steps k t = .next u ∧
        (∀ r ∈ verifiedRegs, legalAttempts (m.encode r) (ps r)) ∧
        u.phase = .idle ∧ u.mirror = m ∧ u.select = false ∧ u.cmdValid = false ∧ u.hostQueue = s.hostQueue ∧
        u.err = (s.err || !bulkMatched m ps) ∧
        u.history = s.history ++ bulkWriteEvents m ps q ++ [.done (Result.ofMatched (bulkMatched m ps))]

/-- The counts of spec/44_bulk_and_system.md section 2 and spec/70_reset_and_hazards.md section 4 (D6, D15, entry 15), of the
run itself: WRITE_ALL or INIT, on a Transport that answers, is complete within 291 steps of its acceptance and has appended
one exchange for STATUS and two for each attempt of the seven verified registers: 15, and two more for each delay, so 15 to
141, with at most 63 delays summing to at most 315 units, and one completion; OK leaves `err` as it
was, FAIL sets it and means at least one register's nine delays. -/
def Obligations.BulkWriteCounts : Prop :=
  ∀ (i : Instr) (op : Op) (m : Mirror) (s : State), bulkWriteOf s.mirror i = some (op, m) →
    s.phase = .idle → s.select = false → s.neverHangs →
    ∃ (t u : State) (k : Nat) (es : List Event) (res : Result), k ≤ 291 ∧ exec i s = .next t ∧
      steps k t = .next u ∧ u.phase = .idle ∧ u.history = s.history ++ es ++ [.done res] ∧ (∀ res', .done res' ∉ es) ∧
      exchangeCount es = 15 + 2 * (delayArgs es).length ∧
      15 ≤ exchangeCount es ∧ exchangeCount es ≤ 141 ∧ (delayArgs es).length ≤ 63 ∧ (delayArgs es).sum ≤ 315 ∧
      (res = .ok → u.err = s.err) ∧ (res = .fail → u.err = true ∧ 33 ≤ exchangeCount es ∧ 45 ≤ (delayArgs es).sum)

/-- R150: CLEAR_ERROR is the word 0xB0000000, accepted only in IDLE; it clears `err`, set or not, and completes with
`Done(OK)`; no exchange, no cell, nothing else; and no step but its acceptance takes `err` from 1 to 0. What becomes of the
port's signals (entry 5) is left open. -/
def Obligations.ClearErrorClearsTheFlag : Prop :=
  encode .clearError = .command 0xB0000000 ∧
  (∀ s : State, s.phase = .idle → ∃ t, exec .clearError s = .next t ∧
    t.offPort = State.offPort { s with err := false, history := s.history ++ [.done .ok] }) ∧
  (∀ s : State, s.phase ≠ .idle → exec .clearError s = .next s) ∧
  (∀ s t : State, step s = .next t → s.err = true → t.err = false →
    s.phase = .idle ∧ s.cmdValid = true ∧ s.cw = 0xB0000000)

/-! ### Frames -/

/-- A W frame, of any register with any cells, makes one exchange of `ENC_r` and discards the reply: in W_TRANSMIT the
controller goes on to W_VERIFY, in S_TRANSMIT the sub-operation ends, in any other phase nothing else happens, which is the
model's choice (spec/20_memory.md section 3, spec/43_verified_write.md sections 2 and 5; D10, entries 1, 4; what the
sequencing registers keep in IDLE is entry 22's). -/
def Obligations.WriteFrameIsSent : Prop :=
  ∀ (m : Mirror) (r : Reg) (s s1 : State) (q : Frame), s.select = false → s.takeAnswer = some (q, s1) →
    ∃ t, exec (wrOf m r) s = .next t ∧
      (s.phase = .wTransmit →
        t = { s1 with phase := .wVerify, history := s.history ++ exchangeEvents (m.encode r) q }) ∧
      (s.phase = .sTransmit → s.op.isBulk = true →
        t = { s1 with phase := .bNext, history := s.history ++ exchangeEvents (m.encode r) q }) ∧
      (s.phase = .sTransmit → s.op.isBulk = false →
        t = { s1 with phase := .idle, history := s.history ++ exchangeEvents (m.encode r) q ++ [.done .ok] }) ∧
      (s.phase ≠ .wTransmit → s.phase ≠ .sTransmit →
        t = { s1 with history := s.history ++ exchangeEvents (m.encode r) q })

/-- A Q frame makes one exchange of the read request and leaves the reply in `rbf`: in W_VERIFY the controller goes on to
W_COMPARE, in R_EXCHANGE to R_DECODE, in any other phase nothing else happens, which is the model's choice
(spec/20_memory.md section 3, spec/42_read.md; D12, entries 1, 4). -/
def Obligations.ReadFrameIsSent : Prop :=
  ∀ (r : Reg) (s s1 : State) (q : Frame), s.select = false → s.takeAnswer = some (q, s1) →
    ∃ t, exec (Instr.rdOf r) s = .next t ∧
      (s.phase = .wVerify → t = { s1 with
        phase := .wCompare, rbf := q, history := s.history ++ exchangeEvents (rdreq r.addr) q }) ∧
      (s.phase = .rExchange → t = { s1 with
        phase := .rDecode, rbf := q, history := s.history ++ exchangeEvents (rdreq r.addr) q }) ∧
      (s.phase ≠ .wVerify → s.phase ≠ .rExchange →
        t = { s1 with rbf := q, history := s.history ++ exchangeEvents (rdreq r.addr) q })

/-! ### Phases -/

/-- R122 and R123: W_TRANSMIT makes one exchange of `txf`, whose reply affects nothing, and W_VERIFY follows it at once with
one exchange of the read request for `cur`, whose reply goes to `rbf`. -/
def Obligations.TransmitThenVerify : Prop :=
  ∀ (s s1 s2 : State) (w q : Frame), s.phase = .wTransmit → s.select = false →
    s.takeAnswer = some (w, s1) → s1.takeAnswer = some (q, s2) →
    step s = .next { s1 with phase := .wVerify, history := s.history ++ exchangeEvents s.txf w } ∧
    steps 2 s = .next { s2 with
      phase := .wCompare, rbf := q,
      history := s.history ++ exchangeEvents s.txf w ++ exchangeEvents (rdreq s.cur) q }

/-- R124: W_COMPARE compares bits 11:0 of the frame sent and of the readback, and nothing else decides: equal ends the
sub-operation with OK; unequal goes to W_BACKOFF while `att` is below ten, and at ten sets `err` and ends it with FAIL. -/
def Obligations.CompareStep : Prop :=
  ∀ s : State, s.phase = .wCompare →
    ((∀ i, i < 12 → s.txf.getLsbD i = s.rbf.getLsbD i) → step s = .next (finish .ok s)) ∧
    ((∃ i, i < 12 ∧ s.txf.getLsbD i ≠ s.rbf.getLsbD i) →
      (s.att.toNat < 10 → step s = .next { s with phase := .wBackoff }) ∧
      (10 ≤ s.att.toNat → step s = .next (finish .fail { s with err := true })))

/-- W_BACKOFF, where its wait ends, records the delay with the attempt's number, then counts (spec/43_verified_write.md
section 2; D6, entries 15, 17; how the environment says which waits end is entry 3's). -/
def Obligations.BackoffStep : Prop :=
  ∀ s : State, s.phase = .wBackoff →
    (s.delayHangsAfter = none →
      step s = .next { s with
        phase := .wTransmit, att := s.att + 1, history := s.history ++ [.delay s.att.toNat] }) ∧
    (∀ n, s.delayHangsAfter = some (n + 1) →
      step s = .next { s with
        phase := .wTransmit, att := s.att + 1, delayHangsAfter := some n,
        history := s.history ++ [.delay s.att.toNat] })

/-- W_ENCODE and S_ENCODE encode the mirror's register into `txf`, and W_ENCODE starts the count at one
(spec/43_verified_write.md sections 2 and 5; D6, D27). -/
def Obligations.EncodeSteps : Prop :=
  ∀ s : State,
    (s.phase = .wEncode →
      step s = .next { s with phase := .wTransmit, att := 1, txf := s.mirror.encode (Reg.ofAddr s.cur) }) ∧
    (s.phase = .sEncode → step s = .next { s with phase := .sTransmit, txf := s.mirror.encode .status })

/-- `finish` and B_NEXT (spec/44_bulk_and_system.md section 1; D15, D27, entry 15; what the sequencing registers keep in
IDLE is entry 22's). -/
def Obligations.SequencerLaw : Prop :=
  (∀ (res : Result) (s : State),
    (s.op = .readAll ∨ s.op = .writeAll ∨ s.op = .init →
      finish res s = { s with phase := .bNext, acc := s.acc && decide (res = .ok) }) ∧
    (s.op ≠ .readAll → s.op ≠ .writeAll → s.op ≠ .init →
      finish res s = { s with phase := .idle, history := s.history ++ [.done res] })) ∧
  (∀ s : State, s.phase = .bNext →
    (s.seq = 8 → step s = .next { s with
      phase := .idle, history := s.history ++ [.done (if s.acc then .ok else .fail)] }) ∧
    (s.seq.toNat < 8 → step s = .next { s with
      cur := BitVec.ofNat 3 s.seq.toNat, seq := s.seq + 1,
      phase := if s.op = .readAll then .rExchange else if s.seq = 7 then .sEncode else .wEncode }))

/-- R_DECODE writes the register's cells from `rbf` and ends the sub-operation with OK (spec/42_read.md; D27). -/
def Obligations.ReadDecodeStep : Prop :=
  ∀ s : State, s.phase = .rDecode →
    step s = .next (finish .ok { s with mirror := s.mirror.storeReply (Reg.ofAddr s.cur) s.rbf })

/-- R162: the entry of the error event has three effects only. In W_COMPARE after the tenth mismatch: `err <- 1`, the result
FAIL, and the return to IDLE, or to B_NEXT inside a bulk command. In IDLE the sequencing registers have lost their meaning,
and what they then hold (entry 22) is left open. -/
def Obligations.WriteExhaustedEntry : Prop :=
  ∀ s : State, s.phase = .wCompare → s.select = false → payloadsMatch s.txf s.rbf = false → s.att = 10 →
    (s.op.isBulk = false → ∃ t, step s = .next t ∧ State.sameButSequencing t { s with
      err := true, phase := .idle, select := false, history := s.history ++ [.done .fail] }) ∧
    (s.op.isBulk = true → step s = .next { s with err := true, acc := false, phase := .bNext, select := false })

/-- R129: no phase of a verified write, nor the acceptance of WRITE.r, stores anything in a mirror cell, so a cell that
does not fit its field still does not after. The readback is kept in `rbf` only: W_VERIFY changes nothing else for it but the
record of the exchange. It is kept until the compare only: W_COMPARE makes its one decision by it, and no other phase of a
verified write, nor B_NEXT or IDLE after it, depends on `rbf` at all; what `rbf` holds after the compare is left open (both
sides blank it). Where it matched, every field it holds is the low bits of the mirror's cell. -/
def Obligations.WriteLeavesTheMirror : Prop :=
  (∀ (r : Reg) (s t : State), s.phase = .idle → exec (Instr.writeOf r) s = .next t → t.mirror = s.mirror) ∧
  (∀ s t : State, s.phase.isVerifiedWrite = true → step s = .next t → t.mirror = s.mirror) ∧
  (∀ (s s1 : State) (q : Frame), s.phase = .wVerify → s.select = false → s.takeAnswer = some (q, s1) →
    step s = .next { s1 with
      phase := .wCompare, rbf := q, history := s.history ++ exchangeEvents (rdreq s.cur) q }) ∧
  (∀ (s : State) (q : Frame), s.phase = .wCompare → payloadsMatch s.txf q = payloadsMatch s.txf s.rbf →
    mapNext (fun t => { t with rbf := 0 }) (step { s with rbf := q }) =
      mapNext (fun t => { t with rbf := 0 }) (step s)) ∧
  (∀ (s : State) (q : Frame), s.phase ≠ .wCompare → s.phase ≠ .rDecode →
    mapNext (fun t => { t with rbf := 0 }) (step { s with rbf := q }) =
      mapNext (fun t => { t with rbf := 0 }) (step s)) ∧
  (∀ s : State, ControllerInv s → s.phase = .wCompare → payloadsMatch s.txf s.rbf = true →
    ∀ f : Field, f.reg = Reg.ofAddr s.cur →
      ((s.mirror.storeReply (Reg.ofAddr s.cur) s.rbf).get f).toNat = (s.mirror.get f).toNat % 2 ^ f.width)

/-- R163: the return from the error event is CLEAR_ERROR, which clears `err` and restores nothing else; every instruction
does the same with `err` at 1 as at 0, and so does every step, in every phase; a failure or a success of a verified write
while `err` is 1 leaves it 1. -/
def Obligations.ErrorReturn : Prop :=
  (∀ s : State, s.phase = .idle → ∃ t, exec .clearError s = .next t ∧ t.err = false ∧ t.mirror = s.mirror ∧
    t.phase = .idle ∧ t.select = s.select ∧ t.op = s.op ∧ t.cur = s.cur ∧ t.att = s.att ∧ t.txf = s.txf ∧
    t.rbf = s.rbf ∧ t.seq = s.seq ∧ t.acc = s.acc) ∧
  (∀ (i : Instr) (s : State) (b : Bool), i ≠ .clearError →
    exec i (State.setErr b s) = mapNext (State.setErr b) (exec i s)) ∧
  (∀ (s : State) (b : Bool),
    mapNext (State.setErr false) (step (State.setErr b s)) = mapNext (State.setErr false) (step s)) ∧
  (∀ s : State, s.err = true → s.phase.isVerifiedWrite = true → ∃ t, step s = .next t ∧ t.err = true)

/-! ### The whole machine -/

/-- R16: `err` goes from 0 to 1 only in the exhaustion of a verified write, which sets it; from 1 to 0 only by CLEAR_ERROR,
which clears it; and nothing else the machine does depends on it. -/
def Obligations.ErrorFlagLife : Prop :=
  (∀ s t : State, step s = .next t → s.err = false → t.err = true →
    s.phase = .wCompare ∧ payloadsMatch s.txf s.rbf = false ∧ 10 ≤ s.att.toNat) ∧
  (∀ s : State, s.phase = .wCompare → payloadsMatch s.txf s.rbf = false → 10 ≤ s.att.toNat →
    ∃ t, step s = .next t ∧ t.err = true) ∧
  (∀ s t : State, step s = .next t → s.err = true → t.err = false →
    s.phase = .idle ∧ s.cmdValid = true ∧ decode (.command s.cw) = some .clearError) ∧
  (∀ s : State, s.phase = .idle → ∃ t, exec .clearError s = .next t ∧ t.err = false) ∧
  (∀ (s : State) (b : Bool),
    mapNext (State.setErr false) (step (State.setErr b s)) = mapNext (State.setErr false) (step s))

/-- Who writes the mirror (spec/10_state.md section 1; spec/44_bulk_and_system.md section 3; spec/95_test_vectors.md section
10, property 5): a step leaves it as it is, or decodes a reply in R_DECODE, or accepts SETF, INIT, ENABLE (which stores 1),
DISABLE (which stores 0; both D17, entry 15) or CLEAR_STATUS (which zeroes all eight cells; D26, entry 15). No write phase
writes it. -/
def Obligations.WhoWritesTheMirror : Prop :=
  ∀ s t : State, step s = .next t →
    t.mirror = s.mirror ∨
    (s.phase = .rDecode ∧ t.mirror = s.mirror.storeReply (Reg.ofAddr s.cur) s.rbf) ∨
    (s.phase = .idle ∧ s.cmdValid = true ∧
      ((∃ f v, decode (.command s.cw) = some (.setf f v) ∧ t.mirror = s.mirror.set f v) ∨
       (decode (.command s.cw) = some .init ∧ t.mirror = Mirror.defaults) ∨
       (decode (.command s.cw) = some .enable ∧ t.mirror = s.mirror.set .ctrlEnbl 1) ∨
       (decode (.command s.cw) = some .disable ∧ t.mirror = s.mirror.set .ctrlEnbl 0) ∨
       (decode (.command s.cw) = some .clearStatus ∧
         ∀ f, t.mirror.get f = if f.reg = .status then 0 else s.mirror.get f)))

/-- R15: the fit of the cells holds after reset and of every cell a read wrote, is broken by nothing but a SETF whose value
does not fit, which the block neither checks nor reports; and a value that does not fit disturbs no bit of a frame outside
its own field. -/
def Obligations.FitLaw : Prop :=
  State.reset.mirror.fits ∧
  (∀ (m : Mirror) (r : Reg) (q : Frame) (f : Field), f.reg = r → Field.fits f ((m.storeReply r q).get f) = true) ∧
  (∀ s t : State, s.mirror.fits → step s = .next t →
    t.mirror.fits ∨ (s.phase = .idle ∧ s.cmdValid = true ∧
      ∃ f v, decode (.command s.cw) = some (.setf f v) ∧ 2 ^ f.width ≤ v.toNat)) ∧
  (∀ (f : Field) (v : BitVec 16) (s : State), s.phase = .idle →
    ∃ t, exec (.setf f v) s = .next t ∧ t.err = s.err ∧ t.history = s.history ++ [.done .ok]) ∧
  (∀ (m : Mirror) (f : Field) (v : BitVec 16) (r : Reg) (i : Nat),
    ¬(f.reg = r ∧ f.lo ≤ i ∧ i < f.lo + f.width) →
    ((m.set f v).encode r).getLsbD i = (m.encode r).getLsbD i)

/-- What one step adds to the history (spec/20_memory.md sections 2 and 4, spec/10_state.md section 4; the CS events as
entry 4 records them, the hang as entry 3): nothing, one delay, one framed exchange, a completion, an exchange and a
completion, or the select of an exchange that hangs. A busy step completes the command exactly if it returns to IDLE. -/
def Obligations.EventsOfOneStep : Prop :=
  ∀ s t : State, s.select = false → step s = .next t →
    ∃ es, t.history = s.history ++ es ∧
      (es = [] ∨ (∃ k, es = [.delay k]) ∨ (∃ out q, es = exchangeEvents out q) ∨ (∃ res, es = [.done res]) ∨
        (∃ out q res, es = exchangeEvents out q ++ [.done res]) ∨ es = [.cs true]) ∧
      (t.select = true ↔ es = [.cs true]) ∧
      (s.phase ≠ .idle → (t.phase = .idle ↔ ∃ res, .done res ∈ es))

/-- Every frame the block sends is one of the sixteen rows of the frame table (spec/30_encoding.md section 1; D4). -/
def Obligations.SentFramesAreTableFrames : Prop :=
  ∀ s t : State, ControllerInv s → step s = .next t →
    (∀ out q, .xchg out q ∈ s.history → isSentFrame out = true) →
    ∀ out q, .xchg out q ∈ t.history → isSentFrame out = true

/-- A Transport or a delay that never returns leaves the block busy in its phase for ever (spec/20_memory.md section 5; D23,
entry 3). -/
def Obligations.HangHoldsTheController : Prop :=
  (∀ (s : State) (rest : List Answer) (n : Nat), s.phase.isExchange = true → s.transport = .never :: rest →
    steps (n + 1) s = .next s.assertSelect ∧ s.assertSelect.phase = s.phase ∧ s.busy = true) ∧
  (∀ (s : State) (n : Nat), s.phase = .wBackoff → s.delayHangsAfter = some 0 → steps n s = .next s)

/-- The machine never faults, and a step is refused only for an illegal command word: whether there is a step never depends
on a reply (spec/60_exceptions.md section 1, spec/20_memory.md section 5; D14, D23, entries 7, 19). -/
def Obligations.StepAlwaysAnswers : Prop :=
  ∀ s : State, (∃ t, step s = .next t) ∨
    (s.phase = .idle ∧ s.cmdValid = true ∧ decode (.command s.cw) = none ∧
      step s = .refused (.illegalCommandWord s.cw))

/-- Every step keeps the controller's invariant (spec/10_state.md section 3, spec/43_verified_write.md sections 2 and 6;
D6, D27). -/
def Obligations.ControllerInvKept : Prop :=
  ∀ s t : State, ControllerInv s → step s = .next t → ControllerInv t

/-- The controller's invariant holds after reset, where the sequencing registers have the values entry 8 chose. -/
def Obligations.ControllerInvAtReset : Prop := ControllerInv State.reset

/-- What reset leaves where the spec gives a value: `DEFAULTS` in every cell, `err` 0, IDLE and so not busy, the select
de-asserted, no event (spec/70_reset_and_hazards.md section 1; D8, D9, entry 9). -/
def Obligations.ResetValues : Prop :=
  (∀ f : Field, State.reset.mirror.get f = (Config.defaults f).setWidth 16) ∧ State.reset.err = false ∧
    State.reset.phase = .idle ∧ State.reset.busy = false ∧ State.reset.select = false ∧ State.reset.history = []

/-- The values of the sequencing registers in IDLE are never seen: two idle states that differ only in them look alike
after any number of steps (spec/10_state.md sections 3 and 6; D27). So no claim about the machine's outputs rests on the
reset values of entry 8. -/
def Obligations.SequencingUnseenFromIdle : Prop :=
  ∀ (s s' : State) (k : Nat), s.phase = .idle → State.sameButSequencing s s' →
    mapNext State.observe (steps k s) = mapNext State.observe (steps k s')

/-- What the sequencing registers hold in IDLE, which the spec leaves open (spec/10_state.md section 3; D27): the values the
last command left. A step that ends in IDLE changes none of them. This is the model's choice, entry 22. -/
def Obligations.IdleKeepsSequencing : Prop :=
  ∀ s t : State, step s = .next t → t.phase = .idle →
    t.op = s.op ∧ t.cur = s.cur ∧ t.att = s.att ∧ t.txf = s.txf ∧ t.rbf = s.rbf ∧ t.seq = s.seq ∧ t.acc = s.acc

/-- Every step keeps the relation of agreeing on all but the sequencing registers that are written before they are next read
(spec/10_state.md section 3; D27): it is the step lemma behind SequencingUnseenFromIdle. Agreement includes all that the host
observes, and in IDLE it is agreement on all but the seven registers. -/
def Obligations.StepKeepsAgreement : Prop :=
  (∀ s s' : State, s.blankUnread = s'.blankUnread →
    mapNext State.blankUnread (step s) = mapNext State.blankUnread (step s')) ∧
  (∀ s s' : State, s.blankUnread = s'.blankUnread → s.observe = s'.observe) ∧
  (∀ s s' : State, s.phase = .idle → State.sameButSequencing s s' → s.blankUnread = s'.blankUnread)
end

