-- ==== Sys2Proof/Laws/Codec.lean ====
section
/-! SUPPORT. The codec: encoding what a reply decodes to gives its payload back, register by register. -/

namespace Sys2Proof.Machine

theorem CtrlCells_enc_dec (q : Frame) : ((CtrlCells.dec q).enc) = 0x0000#16 ||| (q &&& 0x0FFF#16) := by
  apply BitVec.eq_of_getLsbD_eq
  intro i hi
  interval_cases i <;> simp [CtrlCells.dec, CtrlCells.enc]

theorem TorqueCells_enc_dec (q : Frame) : ((TorqueCells.dec q).enc) = 0x1000#16 ||| (q &&& 0x07FF#16) := by
  apply BitVec.eq_of_getLsbD_eq
  intro i hi
  interval_cases i <;> simp [TorqueCells.dec, TorqueCells.enc]

theorem OffCells_enc_dec (q : Frame) : ((OffCells.dec q).enc) = 0x2000#16 ||| (q &&& 0x01FF#16) := by
  apply BitVec.eq_of_getLsbD_eq
  intro i hi
  interval_cases i <;> simp [OffCells.dec, OffCells.enc]

theorem BlankCells_enc_dec (q : Frame) : ((BlankCells.dec q).enc) = 0x3000#16 ||| (q &&& 0x01FF#16) := by
  apply BitVec.eq_of_getLsbD_eq
  intro i hi
  interval_cases i <;> simp [BlankCells.dec, BlankCells.enc]

theorem DecayCells_enc_dec (q : Frame) : ((DecayCells.dec q).enc) = 0x4000#16 ||| (q &&& 0x07FF#16) := by
  apply BitVec.eq_of_getLsbD_eq
  intro i hi
  interval_cases i <;> simp [DecayCells.dec, DecayCells.enc]

theorem StallCells_enc_dec (q : Frame) : ((StallCells.dec q).enc) = 0x5000#16 ||| (q &&& 0x0FFF#16) := by
  apply BitVec.eq_of_getLsbD_eq
  intro i hi
  interval_cases i <;> simp [StallCells.dec, StallCells.enc]

theorem DriveCells_enc_dec (q : Frame) : ((DriveCells.dec q).enc) = 0x6000#16 ||| (q &&& 0x0FFF#16) := by
  apply BitVec.eq_of_getLsbD_eq
  intro i hi
  interval_cases i <;> simp [DriveCells.dec, DriveCells.enc]

theorem StatusCells_enc_dec (q : Frame) : ((StatusCells.dec q).enc) = 0x7000#16 ||| (q &&& 0x00FF#16) := by
  apply BitVec.eq_of_getLsbD_eq
  intro i hi
  interval_cases i <;> simp [StatusCells.dec, StatusCells.enc]

/-- Encoding a decoded reply: its payload without the reserved bits, under the register's address (R89). -/
theorem storeReply_encode (m : Mirror) (r : Reg) (q : Frame) :
    (m.storeReply r q).encode r = (r.addr.setWidth 16 <<< 12) ||| (q &&& 0x0FFF &&& ~~~r.reserved) := by
  cases r <;> simp only [Mirror.storeReply, Mirror.encode, CtrlCells_enc_dec, TorqueCells_enc_dec, OffCells_enc_dec,
    BlankCells_enc_dec, DecayCells_enc_dec, StallCells_enc_dec, DriveCells_enc_dec, StatusCells_enc_dec, Reg.addr,
    Reg.reserved, BitVec.and_assoc] <;> rfl

/-- A W frame of a register is its address over its payload. -/
theorem writeFrame_eq {f : Frame} {r : Reg} (hw : Frame.isWrite f = true) (ha : Frame.address f = r.addr)
    (hr : f &&& r.reserved = 0) : (r.addr.setWidth 16 <<< 12) ||| (f &&& 0x0FFF &&& ~~~r.reserved) = f := by
  have h1 : f &&& 0x0FFF &&& ~~~r.reserved = f &&& 0x0FFF := by
    apply BitVec.eq_of_getLsbD_eq
    intro i hi
    have h := congrArg (fun x => BitVec.getLsbD x i) hr
    simp only [BitVec.getLsbD_and, BitVec.getLsbD_not, hi, decide_true, Bool.true_and] at h ⊢
    cases hf : f.getLsbD i <;> simp_all
  rw [h1, ← ha]
  apply BitVec.eq_of_getLsbD_eq
  intro i hi
  simp only [Frame.isWrite, Bool.not_eq_true'] at hw
  unfold Frame.address
  interval_cases i <;> simp_all

@[simp] theorem Reg.addr_ofAddr (a : Addr) : (Reg.ofAddr a).addr = a := by revert a; decide

@[simp] theorem Reg.ofAddr_addr (r : Reg) : Reg.ofAddr r.addr = r := by cases r <;> rfl

/-- The read request of an address decodes to the Q frame of its register. -/
theorem decodeFrame_rdreq (a : Addr) : decodeFrame (rdreq a) = some (Instr.rdOf (Reg.ofAddr a)) := by
  revert a
  decide

/-- A decoded W frame carries the decoded payload. -/
theorem wrOfFrame_eq_wrOf (m : Mirror) (f : Frame) (r : Reg) :
    Instr.wrOfFrame f r = wrOf (m.storeReply r f) r := by
  cases r <;> rfl

end Sys2Proof.Machine
end

