-- ==== Sys2Proof/Laws/State.lean ====
section
/-! SUPPORT. One lemma per field for each named update of the state. -/

namespace Sys2Proof.Machine

@[simp] theorem State.setErr_mirror (b : Bool) (s : State) : (State.setErr b s).mirror = s.mirror := rfl
@[simp] theorem State.setErr_err (b : Bool) (s : State) : (State.setErr b s).err = b := rfl
@[simp] theorem State.setErr_phase (b : Bool) (s : State) : (State.setErr b s).phase = s.phase := rfl
@[simp] theorem State.setErr_op (b : Bool) (s : State) : (State.setErr b s).op = s.op := rfl
@[simp] theorem State.setErr_cur (b : Bool) (s : State) : (State.setErr b s).cur = s.cur := rfl
@[simp] theorem State.setErr_att (b : Bool) (s : State) : (State.setErr b s).att = s.att := rfl
@[simp] theorem State.setErr_txf (b : Bool) (s : State) : (State.setErr b s).txf = s.txf := rfl
@[simp] theorem State.setErr_rbf (b : Bool) (s : State) : (State.setErr b s).rbf = s.rbf := rfl
@[simp] theorem State.setErr_seq (b : Bool) (s : State) : (State.setErr b s).seq = s.seq := rfl
@[simp] theorem State.setErr_acc (b : Bool) (s : State) : (State.setErr b s).acc = s.acc := rfl
@[simp] theorem State.setErr_select (b : Bool) (s : State) : (State.setErr b s).select = s.select := rfl
@[simp] theorem State.setErr_cmdValid (b : Bool) (s : State) : (State.setErr b s).cmdValid = s.cmdValid := rfl
@[simp] theorem State.setErr_cw (b : Bool) (s : State) : (State.setErr b s).cw = s.cw := rfl
@[simp] theorem State.setErr_hostQueue (b : Bool) (s : State) : (State.setErr b s).hostQueue = s.hostQueue := rfl
@[simp] theorem State.setErr_transport (b : Bool) (s : State) : (State.setErr b s).transport = s.transport := rfl
@[simp] theorem State.setErr_freeDraws (b : Bool) (s : State) : (State.setErr b s).freeDraws = s.freeDraws := rfl
@[simp] theorem State.setErr_delayHangsAfter (b : Bool) (s : State) : (State.setErr b s).delayHangsAfter = s.delayHangsAfter := rfl
@[simp] theorem State.setErr_history (b : Bool) (s : State) : (State.setErr b s).history = s.history := rfl

@[simp] theorem State.goto_mirror (p : Phase) (s : State) : (State.goto p s).mirror = s.mirror := rfl
@[simp] theorem State.goto_err (p : Phase) (s : State) : (State.goto p s).err = s.err := rfl
@[simp] theorem State.goto_phase (p : Phase) (s : State) : (State.goto p s).phase = p := rfl
@[simp] theorem State.goto_op (p : Phase) (s : State) : (State.goto p s).op = s.op := rfl
@[simp] theorem State.goto_cur (p : Phase) (s : State) : (State.goto p s).cur = s.cur := rfl
@[simp] theorem State.goto_att (p : Phase) (s : State) : (State.goto p s).att = s.att := rfl
@[simp] theorem State.goto_txf (p : Phase) (s : State) : (State.goto p s).txf = s.txf := rfl
@[simp] theorem State.goto_rbf (p : Phase) (s : State) : (State.goto p s).rbf = s.rbf := rfl
@[simp] theorem State.goto_seq (p : Phase) (s : State) : (State.goto p s).seq = s.seq := rfl
@[simp] theorem State.goto_acc (p : Phase) (s : State) : (State.goto p s).acc = s.acc := rfl
@[simp] theorem State.goto_select (p : Phase) (s : State) : (State.goto p s).select = s.select := rfl
@[simp] theorem State.goto_cmdValid (p : Phase) (s : State) : (State.goto p s).cmdValid = s.cmdValid := rfl
@[simp] theorem State.goto_cw (p : Phase) (s : State) : (State.goto p s).cw = s.cw := rfl
@[simp] theorem State.goto_hostQueue (p : Phase) (s : State) : (State.goto p s).hostQueue = s.hostQueue := rfl
@[simp] theorem State.goto_transport (p : Phase) (s : State) : (State.goto p s).transport = s.transport := rfl
@[simp] theorem State.goto_freeDraws (p : Phase) (s : State) : (State.goto p s).freeDraws = s.freeDraws := rfl
@[simp] theorem State.goto_delayHangsAfter (p : Phase) (s : State) : (State.goto p s).delayHangsAfter = s.delayHangsAfter := rfl
@[simp] theorem State.goto_history (p : Phase) (s : State) : (State.goto p s).history = s.history := rfl

@[simp] theorem State.record_mirror (es : List Event) (s : State) : (State.record es s).mirror = s.mirror := rfl
@[simp] theorem State.record_err (es : List Event) (s : State) : (State.record es s).err = s.err := rfl
@[simp] theorem State.record_phase (es : List Event) (s : State) : (State.record es s).phase = s.phase := rfl
@[simp] theorem State.record_op (es : List Event) (s : State) : (State.record es s).op = s.op := rfl
@[simp] theorem State.record_cur (es : List Event) (s : State) : (State.record es s).cur = s.cur := rfl
@[simp] theorem State.record_att (es : List Event) (s : State) : (State.record es s).att = s.att := rfl
@[simp] theorem State.record_txf (es : List Event) (s : State) : (State.record es s).txf = s.txf := rfl
@[simp] theorem State.record_rbf (es : List Event) (s : State) : (State.record es s).rbf = s.rbf := rfl
@[simp] theorem State.record_seq (es : List Event) (s : State) : (State.record es s).seq = s.seq := rfl
@[simp] theorem State.record_acc (es : List Event) (s : State) : (State.record es s).acc = s.acc := rfl
@[simp] theorem State.record_select (es : List Event) (s : State) : (State.record es s).select = s.select := rfl
@[simp] theorem State.record_cmdValid (es : List Event) (s : State) : (State.record es s).cmdValid = s.cmdValid := rfl
@[simp] theorem State.record_cw (es : List Event) (s : State) : (State.record es s).cw = s.cw := rfl
@[simp] theorem State.record_hostQueue (es : List Event) (s : State) : (State.record es s).hostQueue = s.hostQueue := rfl
@[simp] theorem State.record_transport (es : List Event) (s : State) : (State.record es s).transport = s.transport := rfl
@[simp] theorem State.record_freeDraws (es : List Event) (s : State) : (State.record es s).freeDraws = s.freeDraws := rfl
@[simp] theorem State.record_delayHangsAfter (es : List Event) (s : State) : (State.record es s).delayHangsAfter = s.delayHangsAfter := rfl
@[simp] theorem State.record_history (es : List Event) (s : State) : (State.record es s).history = s.history ++ es := rfl

@[simp] theorem State.releaseSelect_mirror (s : State) : (State.releaseSelect s).mirror = s.mirror := rfl
@[simp] theorem State.releaseSelect_err (s : State) : (State.releaseSelect s).err = s.err := rfl
@[simp] theorem State.releaseSelect_phase (s : State) : (State.releaseSelect s).phase = s.phase := rfl
@[simp] theorem State.releaseSelect_op (s : State) : (State.releaseSelect s).op = s.op := rfl
@[simp] theorem State.releaseSelect_cur (s : State) : (State.releaseSelect s).cur = s.cur := rfl
@[simp] theorem State.releaseSelect_att (s : State) : (State.releaseSelect s).att = s.att := rfl
@[simp] theorem State.releaseSelect_txf (s : State) : (State.releaseSelect s).txf = s.txf := rfl
@[simp] theorem State.releaseSelect_rbf (s : State) : (State.releaseSelect s).rbf = s.rbf := rfl
@[simp] theorem State.releaseSelect_seq (s : State) : (State.releaseSelect s).seq = s.seq := rfl
@[simp] theorem State.releaseSelect_acc (s : State) : (State.releaseSelect s).acc = s.acc := rfl
@[simp] theorem State.releaseSelect_select (s : State) : (State.releaseSelect s).select = false := rfl
@[simp] theorem State.releaseSelect_cmdValid (s : State) : (State.releaseSelect s).cmdValid = s.cmdValid := rfl
@[simp] theorem State.releaseSelect_cw (s : State) : (State.releaseSelect s).cw = s.cw := rfl
@[simp] theorem State.releaseSelect_hostQueue (s : State) : (State.releaseSelect s).hostQueue = s.hostQueue := rfl
@[simp] theorem State.releaseSelect_transport (s : State) : (State.releaseSelect s).transport = s.transport := rfl
@[simp] theorem State.releaseSelect_freeDraws (s : State) : (State.releaseSelect s).freeDraws = s.freeDraws := rfl
@[simp] theorem State.releaseSelect_delayHangsAfter (s : State) : (State.releaseSelect s).delayHangsAfter = s.delayHangsAfter := rfl
@[simp] theorem State.releaseSelect_history (s : State) : (State.releaseSelect s).history = s.history ++ [.cs false] := rfl

@[simp] theorem returnFromError_mirror (s : State) : (returnFromError s).mirror = s.mirror := rfl
@[simp] theorem returnFromError_err (s : State) : (returnFromError s).err = false := rfl
@[simp] theorem returnFromError_phase (s : State) : (returnFromError s).phase = s.phase := rfl
@[simp] theorem returnFromError_op (s : State) : (returnFromError s).op = s.op := rfl
@[simp] theorem returnFromError_cur (s : State) : (returnFromError s).cur = s.cur := rfl
@[simp] theorem returnFromError_att (s : State) : (returnFromError s).att = s.att := rfl
@[simp] theorem returnFromError_txf (s : State) : (returnFromError s).txf = s.txf := rfl
@[simp] theorem returnFromError_rbf (s : State) : (returnFromError s).rbf = s.rbf := rfl
@[simp] theorem returnFromError_seq (s : State) : (returnFromError s).seq = s.seq := rfl
@[simp] theorem returnFromError_acc (s : State) : (returnFromError s).acc = s.acc := rfl
@[simp] theorem returnFromError_select (s : State) : (returnFromError s).select = s.select := rfl
@[simp] theorem returnFromError_cmdValid (s : State) : (returnFromError s).cmdValid = s.cmdValid := rfl
@[simp] theorem returnFromError_cw (s : State) : (returnFromError s).cw = s.cw := rfl
@[simp] theorem returnFromError_hostQueue (s : State) : (returnFromError s).hostQueue = s.hostQueue := rfl
@[simp] theorem returnFromError_transport (s : State) : (returnFromError s).transport = s.transport := rfl
@[simp] theorem returnFromError_freeDraws (s : State) : (returnFromError s).freeDraws = s.freeDraws := rfl
@[simp] theorem returnFromError_delayHangsAfter (s : State) : (returnFromError s).delayHangsAfter = s.delayHangsAfter := rfl
@[simp] theorem returnFromError_history (s : State) : (returnFromError s).history = s.history := rfl

@[simp] theorem done_mirror (res : Result) (s : State) : (done res s).mirror = s.mirror := rfl
@[simp] theorem done_err (res : Result) (s : State) : (done res s).err = s.err := rfl
@[simp] theorem done_phase (res : Result) (s : State) : (done res s).phase = .idle := rfl
@[simp] theorem done_op (res : Result) (s : State) : (done res s).op = s.op := rfl
@[simp] theorem done_cur (res : Result) (s : State) : (done res s).cur = s.cur := rfl
@[simp] theorem done_att (res : Result) (s : State) : (done res s).att = s.att := rfl
@[simp] theorem done_txf (res : Result) (s : State) : (done res s).txf = s.txf := rfl
@[simp] theorem done_rbf (res : Result) (s : State) : (done res s).rbf = s.rbf := rfl
@[simp] theorem done_seq (res : Result) (s : State) : (done res s).seq = s.seq := rfl
@[simp] theorem done_acc (res : Result) (s : State) : (done res s).acc = s.acc := rfl
@[simp] theorem done_select (res : Result) (s : State) : (done res s).select = s.select := rfl
@[simp] theorem done_cmdValid (res : Result) (s : State) : (done res s).cmdValid = s.cmdValid := rfl
@[simp] theorem done_cw (res : Result) (s : State) : (done res s).cw = s.cw := rfl
@[simp] theorem done_hostQueue (res : Result) (s : State) : (done res s).hostQueue = s.hostQueue := rfl
@[simp] theorem done_transport (res : Result) (s : State) : (done res s).transport = s.transport := rfl
@[simp] theorem done_freeDraws (res : Result) (s : State) : (done res s).freeDraws = s.freeDraws := rfl
@[simp] theorem done_delayHangsAfter (res : Result) (s : State) : (done res s).delayHangsAfter = s.delayHangsAfter := rfl
@[simp] theorem done_history (res : Result) (s : State) : (done res s).history = s.history ++ [.done res] := rfl

@[simp] theorem State.recordResult_mirror (res : Result) (s : State) : (State.recordResult res s).mirror = s.mirror := by
  cases res <;> rfl
@[simp] theorem State.recordResult_err (res : Result) (s : State) : (State.recordResult res s).err = s.err := by
  cases res <;> rfl
@[simp] theorem State.recordResult_phase (res : Result) (s : State) : (State.recordResult res s).phase = s.phase := by
  cases res <;> rfl
@[simp] theorem State.recordResult_op (res : Result) (s : State) : (State.recordResult res s).op = s.op := by
  cases res <;> rfl
@[simp] theorem State.recordResult_cur (res : Result) (s : State) : (State.recordResult res s).cur = s.cur := by
  cases res <;> rfl
@[simp] theorem State.recordResult_att (res : Result) (s : State) : (State.recordResult res s).att = s.att := by
  cases res <;> rfl
@[simp] theorem State.recordResult_txf (res : Result) (s : State) : (State.recordResult res s).txf = s.txf := by
  cases res <;> rfl
@[simp] theorem State.recordResult_rbf (res : Result) (s : State) : (State.recordResult res s).rbf = s.rbf := by
  cases res <;> rfl
@[simp] theorem State.recordResult_seq (res : Result) (s : State) : (State.recordResult res s).seq = s.seq := by
  cases res <;> rfl
@[simp] theorem State.recordResult_select (res : Result) (s : State) : (State.recordResult res s).select = s.select := by
  cases res <;> rfl
@[simp] theorem State.recordResult_cmdValid (res : Result) (s : State) : (State.recordResult res s).cmdValid = s.cmdValid := by
  cases res <;> rfl
@[simp] theorem State.recordResult_cw (res : Result) (s : State) : (State.recordResult res s).cw = s.cw := by
  cases res <;> rfl
@[simp] theorem State.recordResult_hostQueue (res : Result) (s : State) : (State.recordResult res s).hostQueue = s.hostQueue := by
  cases res <;> rfl
@[simp] theorem State.recordResult_transport (res : Result) (s : State) : (State.recordResult res s).transport = s.transport := by
  cases res <;> rfl
@[simp] theorem State.recordResult_freeDraws (res : Result) (s : State) : (State.recordResult res s).freeDraws = s.freeDraws := by
  cases res <;> rfl
@[simp] theorem State.recordResult_delayHangsAfter (res : Result) (s : State) : (State.recordResult res s).delayHangsAfter = s.delayHangsAfter := by
  cases res <;> rfl
@[simp] theorem State.recordResult_history (res : Result) (s : State) : (State.recordResult res s).history = s.history := by
  cases res <;> rfl

@[simp] theorem State.recordResult_ok (s : State) : State.recordResult .ok s = s := rfl
@[simp] theorem State.recordResult_fail_acc (s : State) : (State.recordResult .fail s).acc = false := rfl

@[simp] theorem State.assertSelect_mirror (s : State) : s.assertSelect.mirror = s.mirror := by
  unfold State.assertSelect; split <;> rfl
@[simp] theorem State.assertSelect_err (s : State) : s.assertSelect.err = s.err := by
  unfold State.assertSelect; split <;> rfl
@[simp] theorem State.assertSelect_phase (s : State) : s.assertSelect.phase = s.phase := by
  unfold State.assertSelect; split <;> rfl
@[simp] theorem State.assertSelect_op (s : State) : s.assertSelect.op = s.op := by
  unfold State.assertSelect; split <;> rfl
@[simp] theorem State.assertSelect_cur (s : State) : s.assertSelect.cur = s.cur := by
  unfold State.assertSelect; split <;> rfl
@[simp] theorem State.assertSelect_att (s : State) : s.assertSelect.att = s.att := by
  unfold State.assertSelect; split <;> rfl
@[simp] theorem State.assertSelect_txf (s : State) : s.assertSelect.txf = s.txf := by
  unfold State.assertSelect; split <;> rfl
@[simp] theorem State.assertSelect_rbf (s : State) : s.assertSelect.rbf = s.rbf := by
  unfold State.assertSelect; split <;> rfl
@[simp] theorem State.assertSelect_seq (s : State) : s.assertSelect.seq = s.seq := by
  unfold State.assertSelect; split <;> rfl
@[simp] theorem State.assertSelect_acc (s : State) : s.assertSelect.acc = s.acc := by
  unfold State.assertSelect; split <;> rfl
@[simp] theorem State.assertSelect_cmdValid (s : State) : s.assertSelect.cmdValid = s.cmdValid := by
  unfold State.assertSelect; split <;> rfl
@[simp] theorem State.assertSelect_cw (s : State) : s.assertSelect.cw = s.cw := by
  unfold State.assertSelect; split <;> rfl
@[simp] theorem State.assertSelect_hostQueue (s : State) : s.assertSelect.hostQueue = s.hostQueue := by
  unfold State.assertSelect; split <;> rfl
@[simp] theorem State.assertSelect_transport (s : State) : s.assertSelect.transport = s.transport := by
  unfold State.assertSelect; split <;> rfl
@[simp] theorem State.assertSelect_freeDraws (s : State) : s.assertSelect.freeDraws = s.freeDraws := by
  unfold State.assertSelect; split <;> rfl
@[simp] theorem State.assertSelect_delayHangsAfter (s : State) : s.assertSelect.delayHangsAfter = s.delayHangsAfter := by
  unfold State.assertSelect; split <;> rfl
@[simp] theorem State.assertSelect_select (s : State) : s.assertSelect.select = true := by
  unfold State.assertSelect; split <;> simp_all [State.record]

end Sys2Proof.Machine
end

