-- ==== Sys2Proof/Laws/Ops.lean ====
section
/-! SUPPORT. One lemma for each shared operation that says all it can do; later proofs cite these instead of unfolding. -/

namespace Sys2Proof.Machine

/-! ### The Transport -/

/-- A taken answer touches the environment fields only. -/
theorem takeAnswer_frame {s s1 : State} {q : Frame} (h : s.takeAnswer = some (q, s1)) :
    s1 = { s with transport := s1.transport, freeDraws := s1.freeDraws } := by
  unfold State.takeAnswer at h
  split at h <;> simp only [Option.some.injEq, Prod.mk.injEq, reduceCtorEq] at h
  all_goals (obtain ⟨-, rfl⟩ := h; rfl)

/-- Taking an answer does not look at the select or the history. -/
theorem takeAnswer_assertSelect {s s1 : State} {q : Frame} (h : s.takeAnswer = some (q, s1)) :
    s.assertSelect.takeAnswer =
      some (q, { s1 with select := true, history := s.assertSelect.history }) := by
  unfold State.takeAnswer at h ⊢
  rw [State.assertSelect_transport, State.assertSelect_freeDraws]
  split at h <;> simp only [Option.some.injEq, Prod.mk.injEq, reduceCtorEq] at h
  all_goals
    obtain ⟨rfl, rfl⟩ := h
    unfold State.assertSelect
    split <;> simp_all [State.record]

/-- The Transport hangs exactly if its next scripted answer never comes (R46). -/
theorem takeAnswer_eq_none (s : State) : s.takeAnswer = none ↔ ∃ rest, s.transport = .never :: rest := by
  unfold State.takeAnswer
  split <;> simp_all

@[simp] theorem assertSelect_idem (s : State) : s.assertSelect.assertSelect = s.assertSelect := by
  rw [State.assertSelect]
  simp

/-- An exchange that returns, from a de-asserted select: the three framed events, then the continuation. -/
theorem exchange_answered {s s1 : State} {q : Frame} (out : Frame) (cont : Frame → State → State)
    (hs : s.select = false) (h : s.takeAnswer = some (q, s1)) :
    exchange out cont s =
      cont q { s1 with select := false, history := s.history ++ exchangeEvents out q } := by
  unfold exchange
  rw [takeAnswer_assertSelect h]
  simp [State.assertSelect, hs, State.record, State.releaseSelect, exchangeEvents]

/-- An exchange that never returns leaves the state but for the asserted select (R46). -/
theorem exchange_hangs {s : State} {rest : List Answer} (out : Frame) (cont : Frame → State → State)
    (h : s.transport = .never :: rest) : exchange out cont s = s.assertSelect := by
  unfold exchange
  rw [(takeAnswer_eq_none s.assertSelect).2 ⟨rest, by simp [h]⟩]

/-- Everything an exchange can do: go on with some reply from a state that differs only in the select, the history and
the environment, or hang. -/
theorem exchange_cases (out : Frame) (cont : Frame → State → State) (s : State) :
    (∃ q tr fd, exchange out cont s = cont q { s with
        select := false, transport := tr, freeDraws := fd,
        history := s.assertSelect.history ++ [.xchg out q, .cs false] }) ∨
      ((∃ rest, s.transport = .never :: rest) ∧ exchange out cont s = s.assertSelect) := by
  cases h : s.takeAnswer with
  | none =>
    obtain ⟨rest, hr⟩ := (takeAnswer_eq_none s).1 h
    exact .inr ⟨⟨rest, hr⟩, exchange_hangs out cont hr⟩
  | some p =>
    obtain ⟨q, s1⟩ := p
    left
    refine ⟨q, s1.transport, s1.freeDraws, ?_⟩
    unfold exchange
    rw [takeAnswer_assertSelect h]
    rw [takeAnswer_frame h]
    simp [State.record, State.releaseSelect]

/-- The history of an asserted select. -/
theorem assertSelect_history (s : State) :
    s.assertSelect.history = s.history ++ (if s.select then [] else [.cs true]) := by
  unfold State.assertSelect
  split <;> simp_all [State.record]

/-- The asserted select, written out. -/
theorem assertSelect_eq (s : State) :
    s.assertSelect = { s with select := true, history := s.assertSelect.history } := by
  unfold State.assertSelect
  split
  · cases s; simp_all
  · rfl

/-! ### The delay service -/

/-- A taken wait touches the delay service's field only. -/
theorem takeDelay_frame {s s1 : State} (h : s.takeDelay = some s1) :
    s1 = { s with delayHangsAfter := s1.delayHangsAfter } := by
  unfold State.takeDelay at h
  split at h <;> simp only [Option.some.injEq, reduceCtorEq] at h <;> subst h <;> rfl

/-- The wait never ends exactly if no more waits end (R46). -/
theorem takeDelay_eq_none (s : State) : s.takeDelay = none ↔ s.delayHangsAfter = some 0 := by
  unfold State.takeDelay
  split <;> simp_all

/-- Everything W_BACKOFF can do: go on to the next attempt, or stay for ever. -/
theorem backoffPhase_cases (s : State) :
    (∃ d, backoffPhase s =
        { s with
          phase := .wTransmit, att := s.att + 1, delayHangsAfter := d,
          history := s.history ++ [.delay s.att.toNat] }) ∨
      (s.delayHangsAfter = some 0 ∧ backoffPhase s = s) := by
  cases h : s.takeDelay with
  | none => exact .inr ⟨(takeDelay_eq_none s).1 h, by simp [backoffPhase, h]⟩
  | some s1 =>
    refine .inl ⟨s1.delayHangsAfter, ?_⟩
    unfold backoffPhase
    rw [h, takeDelay_frame h]
    rfl

/-! ### The end of a sub-operation -/

theorem finish_of_bulk {s : State} (res : Result) (h : s.op.isBulk = true) :
    finish res s = { s with phase := .bNext, acc := s.acc && decide (res = .ok) } := by
  cases res <;> simp [finish, h, State.goto, State.recordResult]

theorem finish_of_single {s : State} (res : Result) (h : s.op.isBulk = false) :
    finish res s = { s with phase := .idle, history := s.history ++ [.done res] } := by
  simp [finish, h, done, State.goto, State.record]

/-- `finish` changes the phase, the history and `acc` only. -/
theorem finish_cases (res : Result) (s : State) :
    (s.op.isBulk = true ∧ finish res s = { s with phase := .bNext, acc := s.acc && decide (res = .ok) }) ∨
      (s.op.isBulk = false ∧ finish res s = { s with phase := .idle, history := s.history ++ [.done res] }) := by
  cases h : s.op.isBulk with
  | true => exact .inl ⟨rfl, finish_of_bulk res h⟩
  | false => exact .inr ⟨rfl, finish_of_single res h⟩

/-! ### The command port -/

theorem accept_idle {s : State} (start : State → State) (h : s.phase = .idle) :
    accept start s = .next (start { s with cmdValid := false }) := by
  simp [accept, h]

theorem accept_busy {s : State} (start : State → State) (h : s.phase ≠ .idle) : accept start s = .next s := by
  unfold accept
  split
  · contradiction
  · rfl

/-! ### Frames -/

/-- Everything sending a W frame can do. -/
theorem sendWrite_cases (f : Frame) (s : State) :
    (∃ q tr fd, let s' : State :=
        { s with
          select := false, transport := tr, freeDraws := fd,
          history := s.assertSelect.history ++ [.xchg f q, .cs false] }
      (s.phase = .wTransmit ∧ sendWrite f s = { s' with phase := .wVerify }) ∨
      (s.phase = .sTransmit ∧ sendWrite f s = finish .ok s') ∨
      (s.phase ≠ .wTransmit ∧ s.phase ≠ .sTransmit ∧ sendWrite f s = s')) ∨
    ((∃ rest, s.transport = .never :: rest) ∧ sendWrite f s = s.assertSelect) := by
  unfold sendWrite
  rcases exchange_cases f _ s with ⟨q, tr, fd, h⟩ | h
  · left
    refine ⟨q, tr, fd, ?_⟩
    rw [h]
    cases hp : s.phase <;> simp [State.goto]
  · exact .inr h

/-- Everything sending a read request can do. -/
theorem sendRead_cases (r : Reg) (s : State) :
    (∃ q tr fd, let s' : State :=
        { s with
          rbf := q, select := false, transport := tr, freeDraws := fd,
          history := s.assertSelect.history ++ [.xchg (rdreq r.addr) q, .cs false] }
      (s.phase = .wVerify ∧ sendRead r s = { s' with phase := .wCompare }) ∨
      (s.phase = .rExchange ∧ sendRead r s = { s' with phase := .rDecode }) ∨
      (s.phase ≠ .wVerify ∧ s.phase ≠ .rExchange ∧ sendRead r s = s')) ∨
    ((∃ rest, s.transport = .never :: rest) ∧ sendRead r s = s.assertSelect) := by
  unfold sendRead
  rcases exchange_cases (rdreq r.addr) _ s with ⟨q, tr, fd, h⟩ | h
  · left
    refine ⟨q, tr, fd, ?_⟩
    rw [h]
    cases hp : s.phase <;> simp [State.goto]
  · exact .inr h

end Sys2Proof.Machine
end

