-- ==== Sys2Proof/Laws/Step.lean ====
section
/-! SUPPORT. What a step is in each phase: one lemma per phase, so that no later proof unfolds the step. -/

namespace Sys2Proof.Machine

/-- A W frame's meaning is one operation, whatever its register (R36). -/
theorem exec_wrOf (m : Mirror) (r : Reg) (s : State) : exec (wrOf m r) s = .next (sendWrite (m.encode r) s) := by
  cases r <;> rfl

/-- A Q frame's meaning is one operation, whatever its register (R37). -/
theorem exec_rdOf (r : Reg) (s : State) : exec (Instr.rdOf r) s = .next (sendRead r s) := by
  cases r <;> rfl

/-- A W frame that decodes is sent as it stands. -/
theorem exec_decodedWrite {f : Frame} {i : Instr} (hw : Frame.isWrite f = true) (h : decodeFrame f = some i)
    (s : State) : exec i s = .next (sendWrite f s) := by
  simp only [decodeFrame, hw, if_true] at h
  split at h
  · rename_i hr
    obtain rfl := Option.some.inj h
    rw [wrOfFrame_eq_wrOf s.mirror, exec_wrOf, storeReply_encode,
      writeFrame_eq hw (Reg.addr_ofAddr _).symm hr]
  · cases h

/-- W_TRANSMIT and S_TRANSMIT send `txf`, whatever it holds (R122, R135). -/
theorem step_transmit {s : State} (h : s.phase = .wTransmit ∨ s.phase = .sTransmit) :
    step s = .next (sendWrite s.txf s) := by
  have hf : fetch s = if Frame.isWrite s.txf then some (.frame s.txf) else none := by
    rcases h with h | h <;> simp [fetch, h]
  have ha : advance s = sendWrite s.txf s := by rcases h with h | h <;> simp [advance, h]
  unfold step
  rw [hf]
  by_cases hw : Frame.isWrite s.txf
  · simp only [hw, if_true, decode]
    cases hd : decodeFrame s.txf with
    | none => rfl
    | some i => exact exec_decodedWrite hw hd s
  · simp [hw, ha]

/-- W_VERIFY and R_EXCHANGE send the read request of `cur` (R123, R105). -/
theorem step_request {s : State} (h : s.phase = .wVerify ∨ s.phase = .rExchange) :
    step s = .next (sendRead (Reg.ofAddr s.cur) s) := by
  have hf : fetch s = some (.frame (rdreq s.cur)) := by rcases h with h | h <;> simp [fetch, h]
  unfold step
  rw [hf]
  simp only [decode, decodeFrame_rdreq]
  exact exec_rdOf _ _

theorem step_wEncode {s : State} (h : s.phase = .wEncode) : step s = .next (encodePhase s) := by
  simp [step, fetch, advance, h]

theorem step_wCompare {s : State} (h : s.phase = .wCompare) : step s = .next (comparePhase s) := by
  simp [step, fetch, advance, h]

theorem step_wBackoff {s : State} (h : s.phase = .wBackoff) : step s = .next (backoffPhase s) := by
  simp [step, fetch, advance, h]

theorem step_sEncode {s : State} (h : s.phase = .sEncode) : step s = .next (statusEncodePhase s) := by
  simp [step, fetch, advance, h]

theorem step_rDecode {s : State} (h : s.phase = .rDecode) : step s = .next (readDecodePhase s) := by
  simp [step, fetch, advance, h]

theorem step_bNext {s : State} (h : s.phase = .bNext) : step s = .next (bulkNextPhase s) := by
  simp [step, fetch, advance, h]

theorem step_hostTurn {s : State} (h : s.phase = .idle) (hv : s.cmdValid = false) : step s = .next (hostTurn s) := by
  simp [step, fetch, advance, h, hv]

/-- An offered word runs as the command it spells, or is refused (R20, R65). -/
theorem step_command {s : State} (h : s.phase = .idle) (hv : s.cmdValid = true) :
    step s = match decodeCommand s.cw with
      | some i => exec i s
      | none => .refused (.illegalCommandWord s.cw) := by
  simp only [step, fetch, h, hv, if_true, decode]
  rfl

/-- What decodes from a command word is a command. -/
theorem decodeCommand_isCommand {w : CommandWord} {i : Instr} (h : decodeCommand w = some i) : i.isCommand = true := by
  unfold decodeCommand at h
  simp only at h
  split at h
  · split at h
    · split at h <;> cases h
      rfl
    · split at h <;> cases h
      cases Reg.ofAddr _ <;> rfl
    · split at h <;> cases h
      cases Reg.ofAddr _ <;> rfl
    · split at h
      · unfold Instr.ofBareOp at h
        split at h <;> cases h <;> rfl
      · cases h
  · cases h

/-! ### Runs -/

@[simp] theorem steps_zero (s : State) : steps 0 s = .next s := rfl

theorem steps_succ_of_next {s t : State} (k : Nat) (h : step s = .next t) : steps (k + 1) s = steps k t := by
  have hrun := Host.Core.run.eq_2 Sys2Proof.core s k
  have hcore : Sys2Proof.core.step s = .next t := h
  rw [hcore] at hrun
  exact hrun

theorem steps_succ_of_refused {s : State} {r : Refusal} (k : Nat) (h : step s = .refused r) :
    steps (k + 1) s = .refused r := by
  have hrun := Host.Core.run.eq_2 Sys2Proof.core s k
  have hcore : Sys2Proof.core.step s = .refused r := h
  rw [hcore] at hrun
  exact hrun

/-- Runs compose. -/
theorem steps_add_of_next {s t : State} (j k : Nat) (h : steps j s = .next t) : steps (j + k) s = steps k t := by
  induction j generalizing s with
  | zero =>
    cases h
    rw [Nat.zero_add]
  | succ j ih =>
    cases hs : step s with
    | next u =>
      rw [steps_succ_of_next j hs] at h
      rw [show j + 1 + k = (j + k) + 1 by omega, steps_succ_of_next _ hs]
      exact ih h
    | fault r => cases r
    | refused r =>
      rw [steps_succ_of_refused j hs] at h
      cases h

end Sys2Proof.Machine
end

