-- ==== Sys2Proof/Laws/Commands.lean ====
section
/-! SUPPORT. The inversion of a step: what a command does when it is accepted, and what a step can be in each phase.
Later proofs take these cases instead of unfolding `exec` and `step`. -/

namespace Sys2Proof.Machine

/-- Everything an accepted command can do (R20, R100, R105, R120, R135, R141 to R150). -/
theorem exec_command_cases {i : Instr} {s t : State} (hc : i.isCommand = true) (hp : s.phase = .idle)
    (h : exec i s = .next t) :
    (∃ f v, i = .setf f v ∧ t = done .ok { s with mirror := s.mirror.set f v, cmdValid := false }) ∨
    (i = .clearError ∧ t = done .ok { s with err := false, cmdValid := false }) ∨
    (∃ op r, readOf i = some (op, r) ∧
      t = { s with cmdValid := false, op := op, cur := r.addr, phase := .rExchange }) ∨
    (∃ op r m, verifiedWriteOf s.mirror i = some (op, r, m) ∧
      t = { s with mirror := m, cmdValid := false, op := op, cur := r.addr, phase := .wEncode }) ∨
    (∃ op m, statusWriteOf s.mirror i = some (op, m) ∧
      t = { s with mirror := m, cmdValid := false, op := op, cur := Reg.addr .status, phase := .sEncode }) ∨
    (i = .readAll ∧
      t = { s with cmdValid := false, op := .readAll, seq := 0, acc := true, phase := .bNext }) ∨
    (∃ op m, bulkWriteOf s.mirror i = some (op, m) ∧
      t = { s with mirror := m, cmdValid := false, op := op, seq := 0, acc := true, phase := .bNext }) := by
  have hs : ∀ start : State → State, accept start s = .next t → t = start { s with cmdValid := false } := by
    intro start ha
    rw [accept_idle start hp] at ha
    cases ha
    rfl
  cases i with
  | setf f v => exact .inl ⟨f, v, rfl, hs (fun s => done .ok { s with mirror := s.mirror.set f v }) h⟩
  | clearError => exact .inr (.inl ⟨rfl, hs (fun s => done .ok (returnFromError s)) h⟩)
  | readAll => exact .inr (.inr (.inr (.inr (.inr (.inl ⟨rfl, hs _ h⟩)))))
  | writeAll => exact .inr (.inr (.inr (.inr (.inr (.inr ⟨_, _, rfl, hs _ h⟩)))))
  | init => exact .inr (.inr (.inr (.inr (.inr (.inr ⟨_, _, rfl,
      hs (fun s => startBulk .init { s with mirror := Mirror.defaults }) h⟩)))))
  | writeStatus => exact .inr (.inr (.inr (.inr (.inl ⟨_, _, rfl, hs _ h⟩))))
  | clearStatus => exact .inr (.inr (.inr (.inr (.inl ⟨_, _, rfl,
      hs (fun s => startStatusWrite .clearStatus { s with mirror := s.mirror.clearStatus }) h⟩))))
  | writeCtrl => exact .inr (.inr (.inr (.inl ⟨_, _, _, rfl, hs _ h⟩)))
  | writeTorque => exact .inr (.inr (.inr (.inl ⟨_, _, _, rfl, hs _ h⟩)))
  | writeOff => exact .inr (.inr (.inr (.inl ⟨_, _, _, rfl, hs _ h⟩)))
  | writeBlank => exact .inr (.inr (.inr (.inl ⟨_, _, _, rfl, hs _ h⟩)))
  | writeDecay => exact .inr (.inr (.inr (.inl ⟨_, _, _, rfl, hs _ h⟩)))
  | writeStall => exact .inr (.inr (.inr (.inl ⟨_, _, _, rfl, hs _ h⟩)))
  | writeDrive => exact .inr (.inr (.inr (.inl ⟨_, _, _, rfl, hs _ h⟩)))
  | enable => exact .inr (.inr (.inr (.inl ⟨_, _, _, rfl,
      hs (fun s => startWrite .enable .ctrl { s with mirror := s.mirror.setEnbl 1 }) h⟩)))
  | disable => exact .inr (.inr (.inr (.inl ⟨_, _, _, rfl,
      hs (fun s => startWrite .disable .ctrl { s with mirror := s.mirror.setEnbl 0 }) h⟩)))
  | readCtrl => exact .inr (.inr (.inl ⟨_, _, rfl, hs _ h⟩))
  | readTorque => exact .inr (.inr (.inl ⟨_, _, rfl, hs _ h⟩))
  | readOff => exact .inr (.inr (.inl ⟨_, _, rfl, hs _ h⟩))
  | readBlank => exact .inr (.inr (.inl ⟨_, _, rfl, hs _ h⟩))
  | readDecay => exact .inr (.inr (.inl ⟨_, _, rfl, hs _ h⟩))
  | readStall => exact .inr (.inr (.inl ⟨_, _, rfl, hs _ h⟩))
  | readDrive => exact .inr (.inr (.inl ⟨_, _, rfl, hs _ h⟩))
  | readStatus => exact .inr (.inr (.inl ⟨_, _, rfl, hs _ h⟩))
  | getStatus => exact .inr (.inr (.inl ⟨_, _, rfl, hs _ h⟩))
  | _ => cases hc

/-- Everything a step can be, phase by phase (R18). -/
theorem step_cases {s t : State} (h : step s = .next t) :
    (s.phase = .idle ∧ s.cmdValid = false ∧ t = hostTurn s) ∨
    (s.phase = .idle ∧ s.cmdValid = true ∧
      ∃ i, decodeCommand s.cw = some i ∧ i.isCommand = true ∧ exec i s = .next t) ∨
    (s.phase = .wEncode ∧ t = encodePhase s) ∨
    (s.phase = .wTransmit ∧ t = sendWrite s.txf s) ∨
    (s.phase = .wVerify ∧ t = sendRead (Reg.ofAddr s.cur) s) ∨
    (s.phase = .wCompare ∧ t = comparePhase s) ∨
    (s.phase = .wBackoff ∧ t = backoffPhase s) ∨
    (s.phase = .sEncode ∧ t = statusEncodePhase s) ∨
    (s.phase = .sTransmit ∧ t = sendWrite s.txf s) ∨
    (s.phase = .rExchange ∧ t = sendRead (Reg.ofAddr s.cur) s) ∨
    (s.phase = .rDecode ∧ t = readDecodePhase s) ∨
    (s.phase = .bNext ∧ t = bulkNextPhase s) := by
  cases hp : s.phase with
  | idle =>
    cases hv : s.cmdValid with
    | false =>
      rw [step_hostTurn hp hv] at h
      cases h
      simp
    | true =>
      rw [step_command hp hv] at h
      cases hd : decodeCommand s.cw with
      | none => rw [hd] at h; cases h
      | some i =>
        rw [hd] at h
        exact .inr (.inl ⟨rfl, rfl, i, rfl, decodeCommand_isCommand hd, h⟩)
  | wEncode => rw [step_wEncode hp] at h; cases h; simp
  | wTransmit => rw [step_transmit (.inl hp)] at h; cases h; simp
  | wVerify => rw [step_request (.inl hp)] at h; cases h; simp
  | wCompare => rw [step_wCompare hp] at h; cases h; simp
  | wBackoff => rw [step_wBackoff hp] at h; cases h; simp
  | sEncode => rw [step_sEncode hp] at h; cases h; simp
  | sTransmit => rw [step_transmit (.inr hp)] at h; cases h; simp
  | rExchange => rw [step_request (.inr hp)] at h; cases h; simp
  | rDecode => rw [step_rDecode hp] at h; cases h; simp
  | bNext => rw [step_bNext hp] at h; cases h; simp

end Sys2Proof.Machine
end

