-- ==== Sys2Proof/Laws/Mirror.lean ====
section
/-! SUPPORT. The mirror's cells: read after write, and what the operations on whole registers leave alone. -/

namespace Sys2Proof.Machine

theorem Mirror.get_set_self (m : Mirror) (f : Field) (v : Cell) : (m.set f v).get f = v := by
  cases f <;> rfl

theorem Mirror.get_set_of_ne (m : Mirror) (f g : Field) (v : Cell) (h : g ≠ f) : (m.set f v).get g = m.get g := by
  cases f <;> cases g <;> first | rfl | exact absurd rfl h

/-- Two mirrors with the same cells are the same mirror. -/
theorem Mirror.ext_get {m m' : Mirror} (h : ∀ f, m.get f = m'.get f) : m = m' := by
  obtain ⟨⟨_, _, _, _, _, _, _⟩, ⟨_, _⟩, ⟨_, _⟩, ⟨_, _⟩, ⟨_, _⟩, ⟨_, _, _⟩, ⟨_, _, _, _, _, _⟩, ⟨_, _, _, _, _, _, _, _⟩⟩ := m
  obtain ⟨⟨_, _, _, _, _, _, _⟩, ⟨_, _⟩, ⟨_, _⟩, ⟨_, _⟩, ⟨_, _⟩, ⟨_, _, _⟩, ⟨_, _, _, _, _, _⟩, ⟨_, _, _, _, _, _, _, _⟩⟩ := m'
  have hf := fun f => h f
  simp only [Mirror.mk.injEq, CtrlCells.mk.injEq, TorqueCells.mk.injEq, OffCells.mk.injEq, BlankCells.mk.injEq,
    DecayCells.mk.injEq, StallCells.mk.injEq, DriveCells.mk.injEq, StatusCells.mk.injEq]
  exact ⟨⟨hf .ctrlDtime, hf .ctrlIsgain, hf .ctrlExstall, hf .ctrlMode, hf .ctrlRstep, hf .ctrlRdir, hf .ctrlEnbl⟩,
    ⟨hf .torqueSimplth, hf .torqueTorque⟩, ⟨hf .offPwmmode, hf .offToff⟩, ⟨hf .blankAbt, hf .blankTblank⟩,
    ⟨hf .decayDecmod, hf .decayTdecay⟩, ⟨hf .stallVdiv, hf .stallSdcnt, hf .stallSdthr⟩,
    ⟨hf .driveIdrivep, hf .driveIdriven, hf .driveTdrivep, hf .driveTdriven, hf .driveOcpdeg, hf .driveOcpth⟩,
    ⟨hf .statusStdlat, hf .statusStd, hf .statusUvlo, hf .statusBpdf, hf .statusApdf, hf .statusBocp, hf .statusAocp,
      hf .statusOts⟩⟩

theorem Mirror.storeReply_get_of_ne (m : Mirror) (r : Reg) (q : Frame) (f : Field) (h : f.reg ≠ r) :
    (m.storeReply r q).get f = m.get f := by
  cases r <;> cases f <;> first | rfl | exact absurd rfl h

/-- A cell of another register does not reach a register's frame (R70). -/
theorem Mirror.encode_set_of_ne (m : Mirror) (f : Field) (v : Cell) (r : Reg) (h : f.reg ≠ r) :
    (m.set f v).encode r = m.encode r := by
  cases f <;> cases r <;> first | rfl | exact absurd rfl h

@[simp] theorem Mirror.get_ofFields (g : Field → Cell) (f : Field) : (Mirror.ofFields g).get f = g f := by
  cases f <;> rfl

theorem Mirror.setEnbl_eq_set (m : Mirror) (v : Cell) : m.setEnbl v = m.set .ctrlEnbl v := rfl

theorem Mirror.clearStatus_get (m : Mirror) (f : Field) :
    m.clearStatus.get f = if f.reg = .status then 0 else m.get f := by
  cases f <;> rfl

end Sys2Proof.Machine
end

