-- ==== Sys2Proof/Laws/PerInstr.lean ====
section
/-! SUPPORT. The family SpellsItsRow: the encoded word of each instruction spells the instruction's row of the opcode table
(spec/30_encoding.md R59, R62), one lemma per constructor. -/

/-- The encoded word spells the instruction's own row: its masked bits are the row's pattern (R59, R62). -/
def Sys2Proof.Laws.SpellsItsRow.Statement (i : Sys2Proof.Instr) : Prop := i.row.spelledBy (Sys2Proof.encode i) = true

namespace Sys2Proof.Laws

theorem SpellsItsRow.wrCtrl (c : CtrlCells) : SpellsItsRow.Statement (.wrCtrl c) := by
  simp only [SpellsItsRow.Statement, Instr.row, encode, Row.spelledBy, decide_eq_true_eq]
  apply BitVec.eq_of_getLsbD_eq
  intro i hi
  interval_cases i <;> simp [CtrlCells.enc]

theorem SpellsItsRow.wrTorque (c : TorqueCells) : SpellsItsRow.Statement (.wrTorque c) := by
  simp only [SpellsItsRow.Statement, Instr.row, encode, Row.spelledBy, decide_eq_true_eq]
  apply BitVec.eq_of_getLsbD_eq
  intro i hi
  interval_cases i <;> simp [TorqueCells.enc]

theorem SpellsItsRow.wrOff (c : OffCells) : SpellsItsRow.Statement (.wrOff c) := by
  simp only [SpellsItsRow.Statement, Instr.row, encode, Row.spelledBy, decide_eq_true_eq]
  apply BitVec.eq_of_getLsbD_eq
  intro i hi
  interval_cases i <;> simp [OffCells.enc]

theorem SpellsItsRow.wrBlank (c : BlankCells) : SpellsItsRow.Statement (.wrBlank c) := by
  simp only [SpellsItsRow.Statement, Instr.row, encode, Row.spelledBy, decide_eq_true_eq]
  apply BitVec.eq_of_getLsbD_eq
  intro i hi
  interval_cases i <;> simp [BlankCells.enc]

theorem SpellsItsRow.wrDecay (c : DecayCells) : SpellsItsRow.Statement (.wrDecay c) := by
  simp only [SpellsItsRow.Statement, Instr.row, encode, Row.spelledBy, decide_eq_true_eq]
  apply BitVec.eq_of_getLsbD_eq
  intro i hi
  interval_cases i <;> simp [DecayCells.enc]

theorem SpellsItsRow.wrStall (c : StallCells) : SpellsItsRow.Statement (.wrStall c) := by
  simp only [SpellsItsRow.Statement, Instr.row, encode, Row.spelledBy, decide_eq_true_eq]
  apply BitVec.eq_of_getLsbD_eq
  intro i hi
  interval_cases i <;> simp [StallCells.enc]

theorem SpellsItsRow.wrDrive (c : DriveCells) : SpellsItsRow.Statement (.wrDrive c) := by
  simp only [SpellsItsRow.Statement, Instr.row, encode, Row.spelledBy, decide_eq_true_eq]
  apply BitVec.eq_of_getLsbD_eq
  intro i hi
  interval_cases i <;> simp [DriveCells.enc]

theorem SpellsItsRow.wrStatus (c : StatusCells) : SpellsItsRow.Statement (.wrStatus c) := by
  simp only [SpellsItsRow.Statement, Instr.row, encode, Row.spelledBy, decide_eq_true_eq]
  apply BitVec.eq_of_getLsbD_eq
  intro i hi
  interval_cases i <;> simp [StatusCells.enc]

theorem SpellsItsRow.rdCtrl : SpellsItsRow.Statement .rdCtrl := by unfold SpellsItsRow.Statement; decide
theorem SpellsItsRow.rdTorque : SpellsItsRow.Statement .rdTorque := by unfold SpellsItsRow.Statement; decide
theorem SpellsItsRow.rdOff : SpellsItsRow.Statement .rdOff := by unfold SpellsItsRow.Statement; decide
theorem SpellsItsRow.rdBlank : SpellsItsRow.Statement .rdBlank := by unfold SpellsItsRow.Statement; decide
theorem SpellsItsRow.rdDecay : SpellsItsRow.Statement .rdDecay := by unfold SpellsItsRow.Statement; decide
theorem SpellsItsRow.rdStall : SpellsItsRow.Statement .rdStall := by unfold SpellsItsRow.Statement; decide
theorem SpellsItsRow.rdDrive : SpellsItsRow.Statement .rdDrive := by unfold SpellsItsRow.Statement; decide
theorem SpellsItsRow.rdStatus : SpellsItsRow.Statement .rdStatus := by unfold SpellsItsRow.Statement; decide

theorem SpellsItsRow.setf (f : Field) (v : BitVec 16) : SpellsItsRow.Statement (.setf f v) := by
  simp only [SpellsItsRow.Statement, Instr.row, encode, Row.spelledBy, decide_eq_true_eq]
  apply BitVec.eq_of_getLsbD_eq
  intro i hi
  interval_cases i <;> simp [commandWord]

theorem SpellsItsRow.readCtrl : SpellsItsRow.Statement .readCtrl := by unfold SpellsItsRow.Statement; decide
theorem SpellsItsRow.readTorque : SpellsItsRow.Statement .readTorque := by unfold SpellsItsRow.Statement; decide
theorem SpellsItsRow.readOff : SpellsItsRow.Statement .readOff := by unfold SpellsItsRow.Statement; decide
theorem SpellsItsRow.readBlank : SpellsItsRow.Statement .readBlank := by unfold SpellsItsRow.Statement; decide
theorem SpellsItsRow.readDecay : SpellsItsRow.Statement .readDecay := by unfold SpellsItsRow.Statement; decide
theorem SpellsItsRow.readStall : SpellsItsRow.Statement .readStall := by unfold SpellsItsRow.Statement; decide
theorem SpellsItsRow.readDrive : SpellsItsRow.Statement .readDrive := by unfold SpellsItsRow.Statement; decide
theorem SpellsItsRow.readStatus : SpellsItsRow.Statement .readStatus := by unfold SpellsItsRow.Statement; decide
theorem SpellsItsRow.writeCtrl : SpellsItsRow.Statement .writeCtrl := by unfold SpellsItsRow.Statement; decide
theorem SpellsItsRow.writeTorque : SpellsItsRow.Statement .writeTorque := by unfold SpellsItsRow.Statement; decide
theorem SpellsItsRow.writeOff : SpellsItsRow.Statement .writeOff := by unfold SpellsItsRow.Statement; decide
theorem SpellsItsRow.writeBlank : SpellsItsRow.Statement .writeBlank := by unfold SpellsItsRow.Statement; decide
theorem SpellsItsRow.writeDecay : SpellsItsRow.Statement .writeDecay := by unfold SpellsItsRow.Statement; decide
theorem SpellsItsRow.writeStall : SpellsItsRow.Statement .writeStall := by unfold SpellsItsRow.Statement; decide
theorem SpellsItsRow.writeDrive : SpellsItsRow.Statement .writeDrive := by unfold SpellsItsRow.Statement; decide
theorem SpellsItsRow.writeStatus : SpellsItsRow.Statement .writeStatus := by unfold SpellsItsRow.Statement; decide
theorem SpellsItsRow.readAll : SpellsItsRow.Statement .readAll := by unfold SpellsItsRow.Statement; decide
theorem SpellsItsRow.writeAll : SpellsItsRow.Statement .writeAll := by unfold SpellsItsRow.Statement; decide
theorem SpellsItsRow.init : SpellsItsRow.Statement .init := by unfold SpellsItsRow.Statement; decide
theorem SpellsItsRow.enable : SpellsItsRow.Statement .enable := by unfold SpellsItsRow.Statement; decide
theorem SpellsItsRow.disable : SpellsItsRow.Statement .disable := by unfold SpellsItsRow.Statement; decide
theorem SpellsItsRow.getStatus : SpellsItsRow.Statement .getStatus := by unfold SpellsItsRow.Statement; decide
theorem SpellsItsRow.clearStatus : SpellsItsRow.Statement .clearStatus := by unfold SpellsItsRow.Statement; decide
theorem SpellsItsRow.clearError : SpellsItsRow.Statement .clearError := by unfold SpellsItsRow.Statement; decide

end Sys2Proof.Laws
end

