-- ==== Sys2Proof/Tests/Slice0.lean ====
section
/-! SUPPORT. The model's own tests. Expected words and values are the spec's (spec/30_encoding.md R59 to R65,
spec/95_test_vectors.md, whose vector names stand in the docstrings); each runs one step at most. At the end, one witness
theorem for each statement that has hypotheses: a state and operands that meet them together. -/

namespace Sys2Proof.Tests

open Sys2Proof Sys2Proof.Machine

/-! ### Decoding: every constructor, from words written out from the spec's tables -/

/-- WR.CTRL, WR.TORQUE: E3 (0 000 11 10 0 0101 0 0 1), E18 (0 001 0 001 10111010). -/
theorem test_decode_wr_ctrl_torque :
    decodeTableWord 16 0b0000111000101001 = some (.wrCtrl ⟨3, 2, 0, 5, 0, 0, 1⟩) ∧
    decodeTableWord 16 0b0001000110111010 = some (.wrTorque ⟨1, 0xBA⟩) := by decide

/-- WR.OFF, WR.BLANK: E29 (0 010 000 1 00101111), E35 (0 011 000 1 10000000). -/
theorem test_decode_wr_off_blank :
    decodeTableWord 16 0b0010000100101111 = some (.wrOff ⟨1, 47⟩) ∧
    decodeTableWord 16 0b0011000110000000 = some (.wrBlank ⟨1, 0x80⟩) := by decide

/-- WR.DECAY, WR.STALL: E41 (0 100 0 011 00010000), E48 (0 101 11 11 01000000). -/
theorem test_decode_wr_decay_stall :
    decodeTableWord 16 0b0100001100010000 = some (.wrDecay ⟨3, 0x10⟩) ∧
    decodeTableWord 16 0b0101111101000000 = some (.wrStall ⟨3, 3, 0x40⟩) := by decide

/-- WR.DRIVE, WR.STATUS: E58 (0 110 10 10 01 01 10 01), E69 (0 111 0000 0 0 1 0 0 1 0 1). -/
theorem test_decode_wr_drive_status :
    decodeTableWord 16 0b0110101001011001 = some (.wrDrive ⟨2, 2, 1, 1, 2, 1⟩) ∧
    decodeTableWord 16 0b0111000000100101 = some (.wrStatus ⟨0, 0, 1, 0, 0, 1, 0, 1⟩) := by decide

/-- The eight Q frames: Q1 to Q8. -/
theorem test_decode_rd :
    [0x8000, 0x9000, 0xA000, 0xB000, 0xC000, 0xD000, 0xE000, 0xF000].map (decodeTableWord 16) =
      [some .rdCtrl, some .rdTorque, some .rdOff, some .rdBlank, some .rdDecay, some .rdStall, some .rdDrive,
        some .rdStatus] := by decide

/-- SETF: K1 (0001 0 000 000 00011 0000000000000101), K2 (fid 31), K3 (fid 0, the largest value). -/
theorem test_decode_setf :
    decodeTableWord 32 0b00010000000000110000000000000101 = some (.setf .ctrlMode 5) ∧
    decodeTableWord 32 0x101F0001 = some (.setf .statusOts 1) ∧
    decodeTableWord 32 0x1000FFFF = some (.setf .ctrlDtime 0xFFFF) := by decide

/-- SETF names all 32 fields by their ids, in the order of the field table R12. -/
theorem test_decode_setf_fields :
    (List.range 32).map (fun i => decodeTableWord 32 (0x10000000 + i * 0x10000)) =
      (Reg.all.flatMap Reg.fields).map (fun f => some (.setf f 0)) := by decide

/-- READ.r: R1 to R8. -/
theorem test_decode_read :
    [0x20000000, 0x21000000, 0x22000000, 0x23000000, 0x24000000, 0x25000000, 0x26000000, 0x27000000].map
      (decodeTableWord 32) =
      [some .readCtrl, some .readTorque, some .readOff, some .readBlank, some .readDecay, some .readStall,
        some .readDrive, some .readStatus] := by decide

/-- WRITE.r: R131 to R138. -/
theorem test_decode_write :
    [0x30000000, 0x31000000, 0x32000000, 0x33000000, 0x34000000, 0x35000000, 0x36000000, 0x37000000].map
      (decodeTableWord 32) =
      [some .writeCtrl, some .writeTorque, some .writeOff, some .writeBlank, some .writeDecay, some .writeStall,
        some .writeDrive, some .writeStatus] := by decide

/-- The commands without operands: K6. -/
theorem test_decode_bare :
    [0x40000000, 0x50000000, 0x60000000, 0x70000000, 0x80000000, 0x90000000, 0xA0000000, 0xB0000000].map
      (decodeTableWord 32) =
      [some .readAll, some .writeAll, some .init, some .enable, some .disable, some .getStatus, some .clearStatus,
        some .clearError] := by decide

/-- Illegal command words: K7 to K15. -/
theorem test_decode_illegal :
    [0x00000000, 0xC0000000, 0xD0000000, 0xE0000000, 0xF0000000, 0x10200000, 0x11030005, 0x18030005, 0x20000001,
      0x30010000, 0x41000000, 0xB0000001].map (decodeTableWord 32) = List.replicate 12 none := by decide

/-- A frame with a reserved payload bit set, or a read request with a payload, is none the block sends (R58, R59). -/
theorem test_decode_illegal_frames :
    [0x1800, 0x2200, 0x3800, 0x4800, 0x7100, 0x8001, 0xF800].map (decodeTableWord 16) = List.replicate 7 none := by decide

/-! ### Well-formedness: one ill-formed term for each field's check, the smallest value that does not fit -/

theorem test_illFormed_ctrl :
    [Instr.wrCtrl ⟨4, 0, 0, 0, 0, 0, 0⟩, .wrCtrl ⟨0, 4, 0, 0, 0, 0, 0⟩, .wrCtrl ⟨0, 0, 2, 0, 0, 0, 0⟩,
      .wrCtrl ⟨0, 0, 0, 16, 0, 0, 0⟩, .wrCtrl ⟨0, 0, 0, 0, 2, 0, 0⟩, .wrCtrl ⟨0, 0, 0, 0, 0, 2, 0⟩,
      .wrCtrl ⟨0, 0, 0, 0, 0, 0, 2⟩].map Instr.wellFormed = List.replicate 7 false := by decide

theorem test_illFormed_torque :
    [Instr.wrTorque ⟨8, 0⟩, .wrTorque ⟨0, 256⟩].map Instr.wellFormed = [false, false] := by decide

theorem test_illFormed_off : [Instr.wrOff ⟨2, 0⟩, .wrOff ⟨0, 256⟩].map Instr.wellFormed = [false, false] := by decide

theorem test_illFormed_blank :
    [Instr.wrBlank ⟨2, 0⟩, .wrBlank ⟨0, 256⟩].map Instr.wellFormed = [false, false] := by decide

theorem test_illFormed_decay :
    [Instr.wrDecay ⟨8, 0⟩, .wrDecay ⟨0, 256⟩].map Instr.wellFormed = [false, false] := by decide

theorem test_illFormed_stall :
    [Instr.wrStall ⟨4, 0, 0⟩, .wrStall ⟨0, 4, 0⟩, .wrStall ⟨0, 0, 256⟩].map Instr.wellFormed =
      List.replicate 3 false := by decide

theorem test_illFormed_drive :
    [Instr.wrDrive ⟨4, 0, 0, 0, 0, 0⟩, .wrDrive ⟨0, 4, 0, 0, 0, 0⟩, .wrDrive ⟨0, 0, 4, 0, 0, 0⟩,
      .wrDrive ⟨0, 0, 0, 4, 0, 0⟩, .wrDrive ⟨0, 0, 0, 0, 4, 0⟩, .wrDrive ⟨0, 0, 0, 0, 0, 4⟩].map Instr.wellFormed =
      List.replicate 6 false := by decide

theorem test_illFormed_status :
    [Instr.wrStatus ⟨2, 0, 0, 0, 0, 0, 0, 0⟩, .wrStatus ⟨0, 2, 0, 0, 0, 0, 0, 0⟩, .wrStatus ⟨0, 0, 2, 0, 0, 0, 0, 0⟩,
      .wrStatus ⟨0, 0, 0, 2, 0, 0, 0, 0⟩, .wrStatus ⟨0, 0, 0, 0, 2, 0, 0, 0⟩, .wrStatus ⟨0, 0, 0, 0, 0, 2, 0, 0⟩,
      .wrStatus ⟨0, 0, 0, 0, 0, 0, 2, 0⟩, .wrStatus ⟨0, 0, 0, 0, 0, 0, 0, 2⟩].map Instr.wellFormed =
      List.replicate 8 false := by decide

/-! ### The codec on the spec's vectors -/

/-- The largest values that fit: E2, E17, E27, E34, E40, E47, E56, E68. -/
theorem test_encode_largest :
    Reg.all.map (Mirror.encode (Mirror.ofFields fun f => BitVec.ofNat 16 (2 ^ f.width - 1))) =
      [0x0FFF, 0x17FF, 0x21FF, 0x31FF, 0x47FF, 0x5FFF, 0x6FFF, 0x70FF] := by decide

/-- One over the largest leaves no bit: E14, E44, E53, E65, E75, and the same of TORQUE, OFF and BLANK (R70). -/
theorem test_encode_truncates :
    Reg.all.map (Mirror.encode (Mirror.ofFields fun f => BitVec.ofNat 16 (2 ^ f.width))) =
      [0x0000, 0x1000, 0x2000, 0x3000, 0x4000, 0x5000, 0x6000, 0x7000] := by decide

/-- Single fields and bits: E11, E10, E8, E22, E52, E57, E72. -/
theorem test_encode_field_bits :
    (CtrlCells.enc ⟨1, 0, 0, 0, 0, 0, 0⟩, CtrlCells.enc ⟨0, 1, 0, 0, 0, 0, 0⟩, CtrlCells.enc ⟨0, 0, 0, 8, 0, 0, 0⟩,
      TorqueCells.enc ⟨4, 0⟩, StallCells.enc ⟨2, 2, 0x80⟩, DriveCells.enc ⟨0, 0, 1, 1, 1, 1⟩,
      StatusCells.enc ⟨0, 0, 0, 1, 0, 0, 0, 0⟩) =
      (0x0400, 0x0100, 0x0040, 0x1400, 0x5A80, 0x6055, 0x7010) := by decide

/-- Decoding ignores the top nibble and the reserved bits: X3, X7, X10, X16, X21, X24, X29, X33, X36. -/
theorem test_decode_replies :
    (CtrlCells.dec 0x8E29, CtrlCells.dec 0x0AAA, TorqueCells.dec 0x09BA, OffCells.dec 0x0F2F, BlankCells.dec 0x0280) =
      ((⟨3, 2, 0, 5, 0, 0, 1⟩ : CtrlCells), (⟨2, 2, 1, 5, 0, 1, 0⟩ : CtrlCells), (⟨1, 186⟩ : TorqueCells),
        (⟨1, 47⟩ : OffCells), (⟨0, 128⟩ : BlankCells)) ∧
    (DecayCells.dec 0x0B10, StallCells.dec 0x0A55, DriveCells.dec 0x0E4E, StatusCells.dec 0x7F25) =
      ((⟨3, 16⟩ : DecayCells), (⟨2, 2, 85⟩ : StallCells), (⟨3, 2, 1, 0, 3, 2⟩ : DriveCells),
        (⟨0, 0, 1, 0, 0, 1, 0, 1⟩ : StatusCells)) := by decide

/-! ### Single steps -/

/-- The fixture T_ZERO. -/
def zeroMirror : Mirror := Mirror.ofFields fun _ => 0

/-- A small state in a given phase: T_ZERO, a verified write of TORQUE under way, and a script of replies. -/
def small (p : Phase) (replies : List Frame) : State where
  mirror := { zeroMirror with torque := ⟨1, 0xBA⟩ }
  err := false
  phase := p
  op := .write
  cur := 1
  att := 1
  txf := 0x11BA
  rbf := 0
  seq := 0
  acc := true
  select := false
  cmdValid := false
  cw := 0
  hostQueue := []
  transport := replies.map .reply
  freeDraws := 0
  delayHangsAfter := none
  history := []

/-- An idle state that is offered a command word. -/
def offered (w : CommandWord) : State := { small .idle [] with cmdValid := true, cw := w }

/-- A projection of the next state, `none` where the step does not go on. -/
def after {α : Type} (s : State) (g : State → α) : Option α :=
  match step s with
  | .next t => some (g t)
  | _ => none

/-- SETF: F12, the value is stored whole; and F14, a value that does not fit is no error. -/
theorem test_setf :
    after (offered 0x1003001F) (fun t => (t.mirror.ctrl.mode, t.history, t.phase)) = some (0x1F, [.done .ok], .idle) ∧
    after (offered 0x10060002) (fun t => (t.mirror.ctrl.enbl, t.err)) = some (2, false) := by decide

/-- READ.r and GET_STATUS start at their address (R105, R147). -/
theorem test_read_start :
    after (offered 0x26000000) (fun t => (t.phase, t.cur, t.op)) = some (.rExchange, 6, .read) ∧
    after (offered 0x90000000) (fun t => (t.phase, t.cur, t.op)) = some (.rExchange, 7, .getStatus) := by decide

/-- WRITE.r: a verified write starts in W_ENCODE, WRITE.STATUS in S_ENCODE (R120, R135). -/
theorem test_write_start :
    after (offered 0x31000000) (fun t => (t.phase, t.cur, t.cmdValid)) = some (.wEncode, 1, false) ∧
    after (offered 0x37000000) (fun t => (t.phase, t.cur, t.cmdValid)) = some (.sEncode, 7, false) := by decide

/-- The bulk commands start at `seq` 0 with `acc` 1 (R141, R142). -/
theorem test_bulk_start :
    after { offered 0x40000000 with acc := false, seq := 5 } (fun t => (t.phase, t.seq, t.acc)) = some (.bNext, 0, true) ∧
    after { offered 0x50000000 with acc := false, seq := 5 } (fun t => (t.phase, t.seq, t.acc)) = some (.bNext, 0, true) := by
  decide

/-- INIT leaves `err` set (B5); its mirror is `DEFAULTS`, whatever they are. -/
theorem test_init :
    after { offered 0x60000000 with err := true } (fun t => (t.phase, t.err)) = some (.bNext, true) ∧
    after (offered 0x60000000) (fun t => t.mirror.get .statusOts) =
      some ((Config.defaults .statusOts).setWidth 16) := ⟨by decide, rfl⟩

/-- ENABLE and DISABLE store 1 and 0 (B6, B7, B8). -/
theorem test_enable_disable :
    after (offered 0x70000000) (fun t => (t.mirror.ctrl.enbl, t.phase, t.cur)) = some (1, .wEncode, 0) ∧
    after { offered 0x80000000 with mirror := Mirror.ofFields fun _ => 1 } (fun t => (t.mirror.ctrl.enbl, t.phase)) =
      some (0, .wEncode) := by decide

/-- CLEAR_STATUS zeroes the eight cells and no other (B11). -/
theorem test_clearStatus :
    after { offered 0xA0000000 with mirror := Mirror.ofFields fun _ => 1 }
      (fun t => (t.mirror.status, t.mirror.drive.ocpth, t.phase)) = some (⟨0, 0, 0, 0, 0, 0, 0, 0⟩, 1, .sEncode) := by decide

/-- CLEAR_ERROR: B12, and B13 with `err` already 0. -/
theorem test_clearError :
    after { offered 0xB0000000 with err := true } (fun t => (t.err, t.history)) = some (false, [.done .ok]) ∧
    after (offered 0xB0000000) (fun t => (t.err, t.history)) = some (false, [.done .ok]) := by decide

/-- A W frame: W_TRANSMIT sends `txf` and discards the reply (W1); the STATUS write completes after it (W8). -/
theorem test_write_frame :
    after (small .wTransmit [0x1234]) (fun t => (t.phase, t.rbf, t.history)) =
      some (.wVerify, 0, [.cs true, .xchg 0x11BA 0x1234, .cs false]) ∧
    after { small .sTransmit [0xFFFF] with txf := 0x7025 } (fun t => (t.phase, t.history)) =
      some (.idle, [.cs true, .xchg 0x7025 0xFFFF, .cs false, .done .ok]) := by decide

/-- A Q frame: W_VERIFY reads `cur` back (W1), R_EXCHANGE reads it (R2). -/
theorem test_read_frame :
    after (small .wVerify [0x01BA]) (fun t => (t.phase, t.rbf, t.history)) =
      some (.wCompare, 0x01BA, [.cs true, .xchg 0x9000 0x01BA, .cs false]) ∧
    after (small .rExchange [0x09BA]) (fun t => (t.phase, t.rbf, t.mirror.torque)) =
      some (.rDecode, 0x09BA, ⟨1, 0xBA⟩) := by decide

/-- W_COMPARE: W5 (top nibble ignored), W9 (a reserved bit mismatches), and the tenth mismatch of W3. -/
theorem test_compare :
    after { small .wCompare [] with rbf := 0xF1BA } (fun t => (t.phase, t.history, t.err)) =
      some (.idle, [.done .ok], false) ∧
    after { small .wCompare [] with rbf := 0x09BA, att := 9 } (fun t => (t.phase, t.history)) = some (.wBackoff, []) ∧
    after { small .wCompare [] with rbf := 0x09BA, att := 10 } (fun t => (t.phase, t.history, t.err)) =
      some (.idle, [.done .fail], true) := by decide

/-- W_BACKOFF: the delay is the failed attempt's number (W2). -/
theorem test_backoff :
    after (small .wBackoff []) (fun t => (t.phase, t.att, t.history)) = some (.wTransmit, 2, [.delay 1]) := by decide

/-- W_BACKOFF where `DELAY(1)` ends and `DELAY(2)` never does (R46). -/
theorem test_backoff_hangs :
    after { small .wBackoff [] with delayHangsAfter := some 1 } (fun t => (t.phase, t.delayHangsAfter, t.history)) =
      some (.wTransmit, some 0, [.delay 1]) ∧
    after { small .wBackoff [] with delayHangsAfter := some 0, att := 2 } (fun t => (t.phase, t.att, t.history)) =
      some (.wBackoff, 2, []) := by decide

/-- R_DECODE: R7, a garbage reply is stored. -/
theorem test_readDecode :
    after { small .rDecode [] with cur := 6, rbf := 0xFFFF, op := .read } (fun t => (t.mirror.drive, t.history)) =
      some (⟨3, 3, 3, 3, 3, 3⟩, [.done .ok]) := by decide

/-- B_NEXT: the eighth register of WRITE_ALL is the STATUS write; after it comes the completion (R140, R142). -/
theorem test_bulkNext :
    after { small .bNext [] with op := .writeAll, seq := 7 } (fun t => (t.phase, t.cur, t.seq)) = some (.sEncode, 7, 8) ∧
    after { small .bNext [] with op := .writeAll, seq := 8, acc := false } (fun t => (t.phase, t.history)) =
      some (.idle, [.done .fail]) := by decide

/-- An exchange that never returns: the select stays asserted, the phase holds (R46). -/
theorem test_hang :
    after { small .wVerify [] with transport := [.never] } (fun t => (t.phase, t.select, t.history)) =
      some (.wVerify, true, [.cs true]) := by decide

/-- withFetchWord: the next step after reset runs the word. -/
theorem test_withFetchWord :
    step (State.reset.withFetchWord 32 0x26000000) = exec .readDrive (State.reset.withFetchWord 32 0x26000000) ∧
    step (State.reset.withFetchWord 16 0xC000) = exec .rdDecay (State.reset.withFetchWord 16 0xC000) ∧
    step (State.reset.withFetchWord 16 0x0E29) =
      exec (.wrCtrl ⟨3, 2, 0, 5, 0, 0, 1⟩) (State.reset.withFetchWord 16 0x0E29) := ⟨rfl, rfl, rfl⟩

/-! ### Witnesses: states and operands that meet the hypotheses of each statement -/

/-- DecodeOfEncode: the largest field set of CTRL. -/
theorem test_witness_DecodeOfEncode : Instr.wellFormed (.wrCtrl ⟨3, 3, 1, 15, 1, 1, 1⟩) = true := by decide

/-- EncodeOfDecode: a frame and a command word that decode. -/
theorem test_witness_EncodeOfDecode :
    decode (.frame 0x70FF) = some (.wrStatus ⟨1, 1, 1, 1, 1, 1, 1, 1⟩) ∧
    decode (.command 0x101FFFFF) = some (.setf .statusOts 0xFFFF) := by decide

/-- DecodedWordsAreTheTableRows: both directions. -/
theorem test_witness_DecodedWordsAreTheTableRows :
    decode (.frame 0x47FF) = some (.wrDecay ⟨7, 0xFF⟩) ∧
    Row.spelledBy (Instr.row (.wrDecay ⟨0, 0⟩)) (.frame 0x47FF) = true := by decide

/-- EncodeLaw: the fields of TORQUE in another order; its payload bit 11, which no field covers; a mirror that differs in
another register. -/
theorem test_witness_EncodeLaw :
    [Field.torqueTorque, .torqueSimplth].Perm (Reg.fields .torque) ∧
    (∀ f : Field, f.reg = .torque → ¬(f.lo ≤ 11 ∧ 11 < f.lo + f.width)) ∧
    (∀ f : Field, f.reg = .torque → (zeroMirror.set .ctrlMode 5).get f = zeroMirror.get f) := by
  refine ⟨by decide, ?_, ?_⟩ <;> intro f <;> cases f <;> decide

/-- DecodeLaw: a field of the register read, and one of another register; X8 and X10 differ in ignored bits only. -/
theorem test_witness_DecodeLaw :
    Field.reg .stallSdthr = .stall ∧ Field.reg .decayTdecay ≠ .stall ∧
    (0x01BA : Frame) &&& 0x0FFF &&& ~~~Reg.reserved .torque = (0x09BA : Frame) &&& 0x0FFF &&& ~~~Reg.reserved .torque := by
  decide

/-- CodecRoundTrip: TORQUE at its largest values fits. -/
theorem test_witness_CodecRoundTrip :
    ∀ f : Field, f.reg = .torque →
      Field.fits f (Mirror.get { zeroMirror with torque := ⟨7, 0xFF⟩ } f) = true := by
  intro f
  cases f <;> decide

/-- ReservedBitsDefeatTheCompare: W9's reply, with the reserved bit 11 of TORQUE. -/
theorem test_witness_ReservedBitsDefeatTheCompare : (0x09BA : Frame) &&& Reg.reserved .torque ≠ 0 := by decide

/-- ReplyTopNibbleIgnored: the replies of W1 and W5. -/
theorem test_witness_ReplyTopNibbleIgnored :
    (0x01BA : Frame).extractLsb' 0 12 = (0xF1BA : Frame).extractLsb' 0 12 := by decide

/-- StepRunsDecodedInstruction: each clause. -/
theorem test_witness_StepRunsDecodedInstruction :
    ((offered 0x36000000).phase = .idle ∧ (offered 0x36000000).cmdValid = true ∧
      decode (.command (offered 0x36000000).cw) = some .writeDrive) ∧
    ((small .wTransmit []).txf.getLsbD 15 = false ∧
      decode (.frame (small .wTransmit []).txf) = some (.wrTorque ⟨1, 0xBA⟩)) ∧
    ((small .sTransmit []).phase = .sTransmit ∧ (small .wVerify []).phase = .wVerify ∧
      (small .rExchange []).phase = .rExchange) := by decide

/-- IllegalWordRefused: K7, a word of zeros. -/
theorem test_witness_IllegalWordRefused :
    (offered 0).phase = .idle ∧ (offered 0).cmdValid = true ∧ decode (.command (offered 0).cw) = none := by decide

/-- IdlePortTurn: a host with no word, and one with two. -/
theorem test_witness_IdlePortTurn :
    ((small .idle []).phase = .idle ∧ (small .idle []).cmdValid = false ∧ (small .idle []).hostQueue = []) ∧
    ({ small .idle [] with hostQueue := [0x40000000, 0xB0000000] } : State).hostQueue =
      0x40000000 :: [0xB0000000] := by decide

/-- BusyPortIgnored and CommandWhileBusyChangesNothing. -/
theorem test_witness_BusyPort : (small .bNext []).phase ≠ .idle ∧ Instr.isCommand .clearError = true := by decide

/-- SetfStoresOneCell and ClearErrorClearsTheFlag: IDLE, a busy state, and another field beside the one written. -/
theorem test_witness_SetfStoresOneCell : (offered 0x1003001F).phase = .idle ∧ (small .bNext []).phase ≠ .idle ∧ Field.ctrlEnbl ≠ .ctrlMode := by
  decide

/-- ReadRegisterCompletes and GetStatusReadsStatus: a scripted reply; a busy state; R_DECODE inside READ_ALL. -/
theorem test_witness_ReadRegisterCompletes :
    (small .idle [0x0025]).phase = .idle ∧ (small .idle [0x0025]).select = false ∧
    (small .idle [0x0025]).takeAnswer = some (0x0025, small .idle []) ∧ (small .rDecode []).phase ≠ .idle ∧
    ({ small .rDecode [] with op := .readAll } : State).op = .readAll ∧ (small .rDecode []).cur = Reg.addr .torque := by decide

/-- ReadRegisterCompletes: a reply the model leaves free. -/
theorem test_witness_ReadRegisterCompletes_free :
    (small .idle []).takeAnswer = some (Config.freeReply 0, { small .idle [] with freeDraws := 1 }) := rfl

/-- StatusWritesComplete: both commands. -/
theorem test_witness_StatusWritesComplete :
    statusWriteOf zeroMirror .writeStatus = some (.write, zeroMirror) ∧
    statusWriteOf zeroMirror .clearStatus = some (.clearStatus, zeroMirror) ∧
    (small .idle [7]).phase = .idle ∧ (small .idle [7]).select = false ∧
    (small .idle [7]).takeAnswer = some (7, small .idle []) := by decide

/-- VerifiedWriteRunsItsAttempts and AttemptCounts: W1, one attempt that matches, and no delay. -/
theorem test_witness_VerifiedWrite_one :
    let s := small .idle [0, 0x01BA]
    verifiedWriteOf s.mirror .writeTorque = some (.write, .torque, s.mirror) ∧
    s.phase = .idle ∧ s.select = false ∧
    s.takePairs 1 = some ([(0, 0x01BA)], small .idle []) ∧ (small .idle []).takeDelays (1 - 1) = some (small .idle []) ∧
    legalAttempts (s.mirror.encode .torque) [(0, 0x01BA)] :=
  ⟨rfl, rfl, rfl, rfl, rfl, by decide, by decide, by simp, .inl (by decide)⟩

/-- VerifiedWriteRunsItsAttempts and AttemptCounts: W3, ten attempts that mismatch, with a delay service whose nine waits
end and whose tenth never would. -/
theorem test_witness_VerifiedWrite_ten :
    let s := { small .idle (List.replicate 20 0) with delayHangsAfter := some 9 }
    let s1 := { small .idle [] with delayHangsAfter := some 9 }
    verifiedWriteOf s.mirror .writeTorque = some (.write, .torque, s.mirror) ∧
    s.phase = .idle ∧ s.select = false ∧
    s.takePairs 10 = some (List.replicate 10 (0, 0), s1) ∧
    s1.takeDelays (10 - 1) = some { small .idle [] with delayHangsAfter := some 0 } ∧
    legalAttempts (s.mirror.encode .torque) (List.replicate 10 (0, 0)) :=
  ⟨rfl, rfl, rfl, rfl, rfl, by decide, by decide, fun p h => by
    obtain rfl : p = (0, 0) := by simpa using h
    decide, .inr rfl⟩

/-- VerifiedWriteRunsItsAttempts: B6, ENABLE with a matching readback. -/
theorem test_witness_VerifiedWrite_enable :
    let s := small .idle [0, 0x0001]
    verifiedWriteOf s.mirror .enable = some (.enable, .ctrl, s.mirror.set .ctrlEnbl 1) ∧
    s.phase = .idle ∧ s.select = false ∧
    s.takePairs 1 = some ([(0, 0x0001)], small .idle []) ∧ (small .idle []).takeDelays (1 - 1) = some (small .idle []) ∧
    legalAttempts ((s.mirror.set .ctrlEnbl 1).encode .ctrl) [(0, 0x0001)] :=
  ⟨rfl, rfl, rfl, rfl, rfl, by decide, by decide, by simp, .inl (by decide)⟩

/-- LegalAttemptsExist and BulkWriteRunsEveryRegister: a Transport that answers. -/
theorem test_witness_neverHangs : (small .idle [0x01BA, 0]).neverHangs := by
  unfold State.neverHangs
  decide

/-- BulkWriteRunsEveryRegister: both commands. -/
theorem test_witness_BulkWrite :
    bulkWriteOf zeroMirror .writeAll = some (.writeAll, zeroMirror) ∧
    (bulkWriteOf zeroMirror .init).map Prod.fst = some .init ∧
    (small .idle [0x01BA, 0]).phase = .idle ∧ (small .idle [0x01BA, 0]).select = false := ⟨by decide, rfl, rfl, rfl⟩

/-- AttemptCounts: a state before its end that the busy clause speaks of. -/
theorem test_witness_AttemptCounts_busy : steps 0 (small .wEncode []) = .next (small .wEncode []) ∧ 0 < 4 * 1 := ⟨rfl, by decide⟩

/-- ReadAllReadsEveryRegister: the eight replies of B1; READ_ALL in R_EXCHANGE with its step, and in R_DECODE. -/
theorem test_witness_ReadAll :
    let qs := [0x0E29, 0x01BA, 0x0030, 0x0180, 0x0310, 0x0F40, 0x0A59, 0x0025]
    let s := { small .rExchange [0x01BA] with op := .readAll, seq := 2 }
    (small .idle qs).phase = .idle ∧ (small .idle qs).select = false ∧ (small .bNext []).phase ≠ .idle ∧
    (small .idle qs).takeReplies 8 = some (qs, small .idle []) ∧
    s.op = .readAll ∧ s.phase = .rExchange ∧ after s (fun t => t.phase) = some .rDecode ∧
    ({ small .rDecode [] with op := .readAll } : State).phase = .rDecode := by decide

/-- BulkWriteCounts: both commands, on a Transport whose replies all match T_ZERO's frames, and on one with none scripted. -/
theorem test_witness_BulkWriteCounts :
    let s := { small .idle (List.replicate 15 0) with mirror := zeroMirror }
    bulkWriteOf s.mirror .writeAll = some (.writeAll, s.mirror) ∧ (bulkWriteOf s.mirror .init).map Prod.fst = some .init ∧
    s.phase = .idle ∧ s.select = false ∧ s.neverHangs ∧ (small .idle []).neverHangs := by
  refine ⟨rfl, rfl, rfl, rfl, ⟨?_, rfl⟩, ?_, rfl⟩ <;> decide

/-- WriteFrameIsSent: each clause. -/
theorem test_witness_WriteFrameIsSent :
    (small .wTransmit [5]).select = false ∧ (small .wTransmit [5]).takeAnswer = some (5, small .wTransmit []) ∧
    (small .wTransmit [5]).phase = .wTransmit ∧
    (small .sTransmit [5]).phase = .sTransmit ∧ (small .sTransmit [5]).op.isBulk = false ∧
    Op.isBulk .init = true ∧ (small .idle [5]).phase ≠ .wTransmit ∧ (small .idle [5]).phase ≠ .sTransmit := by decide

/-- ReadFrameIsSent: each clause. -/
theorem test_witness_ReadFrameIsSent :
    (small .wVerify [5]).select = false ∧ (small .wVerify [5]).takeAnswer = some (5, small .wVerify []) ∧
    (small .wVerify [5]).phase = .wVerify ∧ (small .rExchange [5]).phase = .rExchange ∧
    (small .idle [5]).phase ≠ .wVerify ∧ (small .idle [5]).phase ≠ .rExchange := by decide

/-- TransmitThenVerify: W1. -/
theorem test_witness_TransmitThenVerify :
    (small .wTransmit [0, 0x01BA]).phase = .wTransmit ∧ (small .wTransmit [0, 0x01BA]).select = false ∧
    (small .wTransmit [0, 0x01BA]).takeAnswer = some (0, small .wTransmit [0x01BA]) ∧
    (small .wTransmit [0x01BA]).takeAnswer = some (0x01BA, small .wTransmit []) := by decide

/-- CompareStep: equal payloads; unequal ones at attempts nine and ten. -/
theorem test_witness_CompareStep :
    (∀ i, i < 12 → (0x11BA : Frame).getLsbD i = (0xF1BA : Frame).getLsbD i) ∧
    (∃ i, i < 12 ∧ (0x11BA : Frame).getLsbD i ≠ (0x09BA : Frame).getLsbD i) ∧
    (9 : BitVec 4).toNat < 10 ∧ 10 ≤ (10 : BitVec 4).toNat ∧ (small .wCompare []).phase = .wCompare :=
  ⟨by decide, ⟨11, by decide⟩, by decide, by decide, rfl⟩

/-- BackoffStep, EncodeSteps, ReadDecodeStep: the phases. -/
theorem test_witness_phases :
    (small .wBackoff []).phase = .wBackoff ∧ (small .wBackoff []).delayHangsAfter = none ∧
    ({ small .wBackoff [] with delayHangsAfter := some 1 } : State).delayHangsAfter = some (0 + 1) ∧
    (small .wEncode []).phase = .wEncode ∧ (small .sEncode []).phase = .sEncode ∧
    (small .rDecode []).phase = .rDecode := by decide

/-- SequencerLaw: a bulk and a single command; `seq` at 8, 7 and 0. -/
theorem test_witness_SequencerLaw :
    ({ small .bNext [] with op := .readAll } : State).op = .readAll ∧ (small .rDecode []).op ≠ .readAll ∧
    (small .rDecode []).op ≠ .writeAll ∧ (small .rDecode []).op ≠ .init ∧ (small .bNext []).phase = .bNext ∧
    (small .bNext []).seq.toNat < 8 ∧ (7 : BitVec 4).toNat < 8 ∧
    ({ small .bNext [] with seq := 8 } : State).seq = 8 := by decide

/-- WriteExhaustedEntry and the second clause of ErrorFlagLife: the tenth mismatch, single and bulk. -/
theorem test_witness_WriteExhaustedEntry :
    let s := { small .wCompare [] with att := 10 }
    s.phase = .wCompare ∧ s.select = false ∧ payloadsMatch s.txf s.rbf = false ∧ s.att = 10 ∧ 10 ≤ s.att.toNat ∧
    s.op.isBulk = false ∧ Op.isBulk .writeAll = true := by decide

/-- ErrorFlagLife: a step that sets `err`, and one that clears it. -/
theorem test_witness_ErrorFlagLife :
    after { small .wCompare [] with att := 10 } (fun t => t.err) = some true ∧
    ({ small .wCompare [] with att := 10 } : State).err = false ∧
    after { offered 0xB0000000 with err := true } (fun t => t.err) = some false := by decide

/-- WhoWritesTheMirror and StepAlwaysAnswers: a step that goes on. -/
theorem test_witness_step_next : step (small .bNext []) = .next (bulkNextPhase (small .bNext [])) := rfl

/-- WriteLeavesTheMirror: a readback in W_VERIFY, and a phase that never reads `rbf`. -/
theorem test_witness_WriteLeavesTheMirror_verify :
    (small .wVerify [0x01BA]).phase = .wVerify ∧ (small .wVerify [0x01BA]).select = false ∧
    (small .wVerify [0x01BA]).takeAnswer = some (0x01BA, small .wVerify []) ∧ (small .wBackoff []).phase ≠ .wCompare ∧
    (small .wBackoff []).phase ≠ .rDecode := by decide

/-- WriteLeavesTheMirror: an accepted WRITE.TORQUE; a matched compare (W5's reply beside W1's) under the invariant. -/
theorem test_witness_WriteLeavesTheMirror :
    let s := { small .wCompare [] with rbf := 0x01BA }
    (∃ t, exec (Instr.writeOf .torque) (small .idle []) = .next t) ∧ s.phase.isVerifiedWrite = true ∧ ControllerInv s ∧
      payloadsMatch s.txf 0xF1BA = payloadsMatch s.txf s.rbf ∧ payloadsMatch s.txf s.rbf = true ∧
      Field.reg .torqueTorque = Reg.ofAddr s.cur :=
  ⟨⟨_, rfl⟩, by decide, by constructor <;> decide, by decide, by decide, by decide⟩

/-- ErrorReturn: an idle state, another instruction, and a compare with `err` set. -/
theorem test_witness_ErrorReturn :
    (small .idle []).phase = .idle ∧ Instr.readAll ≠ .clearError ∧
    ({ small .wCompare [] with err := true } : State).err = true ∧ (small .wCompare []).phase.isVerifiedWrite = true := by
  decide

/-- FitLaw: a mirror that fits, a step from it, and bits outside a field: just below, just above, another register. -/
theorem test_witness_FitLaw :
    (small .bNext []).mirror.fits ∧ step (small .bNext []) = .next (bulkNextPhase (small .bNext [])) ∧
    ¬(Field.reg .ctrlMode = Reg.ctrl ∧ Field.lo .ctrlMode ≤ 2 ∧ 2 < Field.lo .ctrlMode + Field.width .ctrlMode) ∧
    ¬(Field.reg .ctrlMode = Reg.ctrl ∧ Field.lo .ctrlMode ≤ 7 ∧ 7 < Field.lo .ctrlMode + Field.width .ctrlMode) ∧
    ¬(Field.reg .ctrlMode = Reg.drive ∧ Field.lo .ctrlMode ≤ 3 ∧ 3 < Field.lo .ctrlMode + Field.width .ctrlMode) := by
  refine ⟨?_, rfl, by decide, by decide, by decide⟩
  intro f
  cases f <;> decide

/-- EventsOfOneStep: a step from a de-asserted select. -/
theorem test_witness_EventsOfOneStep :
    (small .rDecode []).select = false ∧ step (small .rDecode []) = .next (readDecodePhase (small .rDecode [])) ∧
    (small .rDecode []).phase ≠ .idle := ⟨rfl, rfl, by decide⟩

/-- ControllerInvKept and SentFramesAreTableFrames: a state in W_COMPARE that meets the invariant, with a history, and its
step. -/
theorem test_witness_ControllerInv :
    let s := { small .wCompare [] with history := exchangeEvents 0x11BA 0 }
    ControllerInv s ∧ step s = .next (comparePhase s) ∧
      (∀ out q, .xchg out q ∈ s.history → isSentFrame out = true) := by
  refine ⟨by constructor <;> decide, rfl, ?_⟩
  intro out q h
  simp [exchangeEvents] at h
  rw [h.1]
  decide

/-- HangHoldsTheController: a hanging exchange and a hanging delay. -/
theorem test_witness_Hang :
    (small .rExchange []).phase.isExchange = true ∧
    ({ small .rExchange [] with transport := [.never] } : State).transport = .never :: [] ∧
    (small .wBackoff []).phase = .wBackoff ∧
    ({ small .wBackoff [] with delayHangsAfter := some 0 } : State).delayHangsAfter = some 0 := by decide

/-- SequencingUnseenFromIdle: two idle states that differ in every sequencing register. -/
theorem test_witness_SequencingUnseen :
    (small .idle []).phase = .idle ∧ State.sameButSequencing (small .idle [])
      { small .idle [] with op := .init, cur := 3, att := 7, txf := 9, rbf := 9, seq := 8, acc := false } := ⟨rfl, rfl⟩

/-- IdleKeepsSequencing: a completion that leaves `cur` and `rbf` as the command left them. -/
theorem test_witness_IdleKeepsSequencing :
    after { small .rDecode [] with op := .read, rbf := 0x01BA } (fun t => (t.phase, t.op, t.cur, t.rbf)) =
      some (.idle, .read, 1, 0x01BA) := by decide

/-- StepKeepsAgreement: two states in W_ENCODE that differ in what it writes, or what only a bulk command reads; two idle
states that differ in every sequencing register. -/
theorem test_witness_StepKeepsAgreement :
    State.blankUnread (small .wEncode []) =
      State.blankUnread { small .wEncode [] with att := 7, txf := 9, rbf := 9, seq := 5, acc := false } ∧
    small .wEncode [] ≠ { small .wEncode [] with att := 7, txf := 9, rbf := 9, seq := 5, acc := false } ∧
    (small .idle []).phase = .idle ∧ State.sameButSequencing (small .idle [])
      { small .idle [] with op := .init, cur := 3, att := 7, txf := 9, rbf := 9, seq := 8, acc := false } :=
  ⟨rfl, by decide, rfl, rfl⟩

end Sys2Proof.Tests
end

section
/-! SUPPORT. The life of `err` (spec/10_state.md R16): every operation but the exhaustion and the return from it commutes
with setting `err`; from this one fact follow both who writes `err` and that nothing depends on it. -/

namespace Sys2Proof.Machine

/-! ### Operations that commute with `err` -/

/-- An operation to which `err` is nothing: setting it before is the same as setting it after. -/
def CommutesWithErr (f : State → State) : Prop := ∀ (b : Bool) (s : State), f (State.setErr b s) = State.setErr b (f s)

theorem State.setErr_self (s : State) : State.setErr s.err s = s := rfl

theorem finish_commutesWithErr (res : Result) : CommutesWithErr (finish res) := by
  intro b s
  cases h : s.op.isBulk with
  | true => simp only [finish_of_bulk, h, State.setErr_op]; rfl
  | false => simp only [finish_of_single, h, State.setErr_op]; rfl

theorem assertSelect_commutesWithErr : CommutesWithErr State.assertSelect := by
  intro b s
  simp only [State.assertSelect, State.setErr_select, apply_ite (State.setErr b)]
  rfl

theorem takeAnswer_setErr (b : Bool) (s : State) :
    (State.setErr b s).takeAnswer = s.takeAnswer.map fun p => (p.1, State.setErr b p.2) := by
  simp only [State.takeAnswer, State.setErr_transport]
  split <;> rfl

theorem exchange_commutesWithErr (out : Frame) {cont : Frame → State → State} (hc : ∀ q, CommutesWithErr (cont q)) :
    CommutesWithErr (exchange out cont) := by
  intro b s
  simp only [exchange, assertSelect_commutesWithErr b s, takeAnswer_setErr]
  cases s.assertSelect.takeAnswer with
  | none => rfl
  | some p => exact hc p.1 b (State.releaseSelect (State.record [.xchg out p.1] p.2))

theorem sendWrite_commutesWithErr (f : Frame) : CommutesWithErr (sendWrite f) :=
  exchange_commutesWithErr f fun _ b s => by
    simp only [State.setErr_phase, finish_commutesWithErr .ok b s]
    split <;> rfl

theorem sendRead_commutesWithErr (r : Reg) : CommutesWithErr (sendRead r) :=
  exchange_commutesWithErr (rdreq r.addr) fun _ b s => by
    simp only [State.setErr_phase]
    split <;> rfl

theorem hostTurn_commutesWithErr : CommutesWithErr hostTurn := by
  intro b s
  simp only [hostTurn, State.setErr_hostQueue]
  split <;> rfl

theorem backoffPhase_commutesWithErr : CommutesWithErr backoffPhase := by
  intro b s
  have ht : (State.setErr b s).takeDelay = s.takeDelay.map (State.setErr b) := by
    simp only [State.takeDelay, State.setErr_delayHangsAfter]
    split <;> rfl
  simp only [backoffPhase, ht]
  cases s.takeDelay <;> rfl

theorem readDecodePhase_commutesWithErr : CommutesWithErr readDecodePhase :=
  fun b s => finish_commutesWithErr .ok b { s with mirror := s.mirror.storeReply (Reg.ofAddr s.cur) s.rbf }

theorem bulkNextPhase_commutesWithErr : CommutesWithErr bulkNextPhase := by
  intro b s
  simp only [bulkNextPhase, State.setErr_seq, State.setErr_op, apply_ite (State.setErr b)]
  rfl

theorem accept_setErr {start : State → State} (hc : CommutesWithErr start) (b : Bool) (s : State) :
    accept start (State.setErr b s) = mapNext (State.setErr b) (accept start s) := by
  by_cases hp : s.phase = .idle
  · rw [accept_idle start hp, accept_idle start (s := State.setErr b s) hp]
    exact congrArg Host.Outcome.next (hc b { s with cmdValid := false })
  · rw [accept_busy start hp, accept_busy start (s := State.setErr b s) hp]
    rfl

/-- Every instruction but CLEAR_ERROR works the same whatever `err` is, and hands it on (R16). -/
theorem exec_setErr {i : Instr} (hi : i ≠ .clearError) (b : Bool) (s : State) :
    exec i (State.setErr b s) = mapNext (State.setErr b) (exec i s) := by
  cases i with
  | clearError => exact absurd rfl hi
  | wrCtrl _ | wrTorque _ | wrOff _ | wrBlank _ | wrDecay _ | wrStall _ | wrDrive _ | wrStatus _ =>
    exact congrArg Host.Outcome.next (sendWrite_commutesWithErr _ b s)
  | rdCtrl | rdTorque | rdOff | rdBlank | rdDecay | rdStall | rdDrive | rdStatus =>
    exact congrArg Host.Outcome.next (sendRead_commutesWithErr _ b s)
  | setf f v =>
    exact accept_setErr (start := fun s => done .ok { s with mirror := s.mirror.set f v }) (fun _ _ => rfl) b s
  | init =>
    exact accept_setErr (start := fun s => startBulk .init { s with mirror := Mirror.defaults }) (fun _ _ => rfl) b s
  | enable =>
    exact accept_setErr (start := fun s => startWrite .enable .ctrl { s with mirror := s.mirror.setEnbl 1 })
      (fun _ _ => rfl) b s
  | disable =>
    exact accept_setErr (start := fun s => startWrite .disable .ctrl { s with mirror := s.mirror.setEnbl 0 })
      (fun _ _ => rfl) b s
  | clearStatus =>
    exact accept_setErr (start := fun s => startStatusWrite .clearStatus { s with mirror := s.mirror.clearStatus })
      (fun _ _ => rfl) b s
  | _ => exact accept_setErr (fun _ _ => rfl) b s

/-! ### The two steps that write `err` -/

/-- The step about to be taken is the exhaustion of a verified write: a mismatch of the tenth attempt (R124, R158). -/
def State.exhausts (s : State) : Prop :=
  s.phase = .wCompare ∧ payloadsMatch s.txf s.rbf = false ∧ 10 ≤ s.att.toNat

/-- The step about to be taken is an accepted CLEAR_ERROR (R150). -/
def State.clearsError (s : State) : Prop :=
  s.phase = .idle ∧ s.cmdValid = true ∧ decodeCommand s.cw = some .clearError

theorem comparePhase_of_match {s : State} (hm : payloadsMatch s.txf s.rbf = true) : comparePhase s = finish .ok s :=
  if_pos hm

theorem comparePhase_of_retry {s : State} (hm : payloadsMatch s.txf s.rbf = false) (ha : s.att.toNat < 10) :
    comparePhase s = State.goto .wBackoff s := by
  have hlt : s.att < Config.maxAttempts := ha
  simp [comparePhase, hm, hlt]

theorem comparePhase_of_exhausted {s : State} (hm : payloadsMatch s.txf s.rbf = false) (ha : 10 ≤ s.att.toNat) :
    comparePhase s = raiseWriteExhausted s := by
  have hlast : ¬ s.att < Config.maxAttempts := Nat.not_lt.2 ha
  simp [comparePhase, hm, hlast]

theorem step_of_exhausts {s : State} (h : s.exhausts) : step s = .next (raiseWriteExhausted s) := by
  obtain ⟨hp, hm, ha⟩ := h
  rw [step_wCompare hp, comparePhase_of_exhausted hm ha]

theorem exec_clearError {s : State} (hp : s.phase = .idle) :
    exec .clearError s = .next (done .ok (returnFromError { s with cmdValid := false })) :=
  accept_idle (fun s => done .ok (returnFromError s)) hp

theorem step_of_clearsError {s : State} (h : s.clearsError) :
    step s = .next (done .ok (returnFromError { s with cmdValid := false })) := by
  obtain ⟨hp, hv, hd⟩ := h
  rw [step_command hp hv, hd]
  exact exec_clearError hp

theorem comparePhase_setErr {s : State} (hp : s.phase = .wCompare) (hx : ¬ s.exhausts) (b : Bool) :
    comparePhase (State.setErr b s) = State.setErr b (comparePhase s) := by
  cases hm : payloadsMatch s.txf s.rbf with
  | true =>
    rw [comparePhase_of_match hm, comparePhase_of_match (s := State.setErr b s) hm]
    exact finish_commutesWithErr .ok b s
  | false =>
    have ha : s.att.toNat < 10 := Nat.lt_of_not_le fun ha => hx ⟨hp, hm, ha⟩
    rw [comparePhase_of_retry hm ha, comparePhase_of_retry (s := State.setErr b s) hm ha]
    rfl

/-- Every other step hands `err` on and does the same whatever it is (R16). -/
theorem step_setErr {s : State} (hx : ¬ s.exhausts) (hr : ¬ s.clearsError) (b : Bool) :
    step (State.setErr b s) = mapNext (State.setErr b) (step s) := by
  have hnext : ∀ {f : State → State}, CommutesWithErr f →
      Host.Outcome.next (f (State.setErr b s)) = mapNext (State.setErr b) (.next (f s)) :=
    fun hf => congrArg Host.Outcome.next (hf b s)
  have hp' : (State.setErr b s).phase = s.phase := rfl
  cases hp : s.phase with rw [hp] at hp'
  | idle =>
    cases hv : s.cmdValid with
    | false =>
      rw [step_hostTurn hp hv, step_hostTurn hp' hv]
      exact hnext hostTurn_commutesWithErr
    | true =>
      rw [step_command hp hv, step_command hp' hv, State.setErr_cw]
      cases hd : decodeCommand s.cw with
      | none => rfl
      | some i => exact exec_setErr (fun hi => hr ⟨hp, hv, hi ▸ hd⟩) b s
  | wEncode =>
    rw [step_wEncode hp, step_wEncode hp']
    rfl
  | wTransmit =>
    rw [step_transmit (.inl hp), step_transmit (.inl hp')]
    exact hnext (sendWrite_commutesWithErr s.txf)
  | wVerify =>
    rw [step_request (.inl hp), step_request (.inl hp')]
    exact hnext (sendRead_commutesWithErr (Reg.ofAddr s.cur))
  | wCompare =>
    rw [step_wCompare hp, step_wCompare hp', comparePhase_setErr hp hx]
    rfl
  | wBackoff =>
    rw [step_wBackoff hp, step_wBackoff hp']
    exact hnext backoffPhase_commutesWithErr
  | sEncode =>
    rw [step_sEncode hp, step_sEncode hp']
    rfl
  | sTransmit =>
    rw [step_transmit (.inr hp), step_transmit (.inr hp')]
    exact hnext (sendWrite_commutesWithErr s.txf)
  | rExchange =>
    rw [step_request (.inr hp), step_request (.inr hp')]
    exact hnext (sendRead_commutesWithErr (Reg.ofAddr s.cur))
  | rDecode =>
    rw [step_rDecode hp, step_rDecode hp']
    exact hnext readDecodePhase_commutesWithErr
  | bNext =>
    rw [step_bNext hp, step_bNext hp']
    exact hnext bulkNextPhase_commutesWithErr

@[simp] theorem finish_err (res : Result) (s : State) : (finish res s).err = s.err := by
  rcases finish_cases res s with ⟨-, h⟩ | ⟨-, h⟩ <;> rw [h]

@[simp] theorem raiseWriteExhausted_err (s : State) : (raiseWriteExhausted s).err = true := finish_err _ _

/-- A step sets `err` by exhaustion, clears it by CLEAR_ERROR, or leaves it. -/
theorem step_err_cases {s t : State} (h : step s = .next t) :
    (s.exhausts ∧ t.err = true) ∨ (s.clearsError ∧ t.err = false) ∨ t.err = s.err := by
  by_cases hx : s.exhausts
  · rw [step_of_exhausts hx] at h
    cases h
    exact .inl ⟨hx, raiseWriteExhausted_err s⟩
  by_cases hr : s.clearsError
  · rw [step_of_clearsError hr] at h
    cases h
    exact .inr (.inl ⟨hr, rfl⟩)
  · have hself := step_setErr hx hr s.err
    rw [State.setErr_self, h] at hself
    have ht : t = State.setErr s.err t := Host.Outcome.next.inj hself
    exact .inr (.inr (by rw [ht, State.setErr_err]))

/-- A step does the same, `err` apart, whatever `err` was (R16). -/
theorem step_blind_to_err (s : State) (b : Bool) :
    mapNext (State.setErr false) (step (State.setErr b s)) = mapNext (State.setErr false) (step s) := by
  by_cases hx : s.exhausts
  · rw [step_of_exhausts hx, step_of_exhausts (s := State.setErr b s) hx]
    rfl
  by_cases hr : s.clearsError
  · rw [step_of_clearsError hr, step_of_clearsError (s := State.setErr b s) hr]
    rfl
  · rw [step_setErr hx hr]
    cases step s <;> rfl

end Sys2Proof.Machine

open Sys2Proof Sys2Proof.Machine

/-- Settles O40: a step that is neither an exhaustion nor a CLEAR_ERROR commutes with setting `err`. -/
theorem errorFlagLife : Obligations.ErrorFlagLife := by
  unfold Obligations.ErrorFlagLife
  refine ⟨?_, ?_, ?_, ?_, step_blind_to_err⟩
  · intro s t h hs ht
    rcases step_err_cases h with ⟨hx, -⟩ | ⟨-, hf⟩ | hk
    · exact hx
    · simp [ht] at hf
    · simp [hs, ht] at hk
  · intro s hp hm ha
    exact ⟨_, step_of_exhausts ⟨hp, hm, ha⟩, raiseWriteExhausted_err s⟩
  · intro s t h hs ht
    rcases step_err_cases h with ⟨-, hf⟩ | ⟨hr, -⟩ | hk
    · simp [ht] at hf
    · exact hr
    · simp [hs, ht] at hk
  · intro s hp
    exact ⟨_, exec_clearError hp, rfl⟩
end

section
/-! SUPPORT. The fit of the mirror's cells (spec/10_state.md R15): the codec read over the field table, which steps write the
mirror, and which of those writes can break the fit. -/

namespace Sys2Proof.Machine

/-! ### The codec over the field table -/

/-- The bits of a field of width `w`, `2^w - 1` (spec/40_codec.md R70, R71). -/
def Field.mask (f : Field) : Cell := BitVec.ofNat 16 (2 ^ f.width - 1)

theorem Field.mask_toNat_lt (f : Field) : (Field.mask f).toNat < 2 ^ f.width := by
  cases f <;> decide

theorem Field.mask_getLsbD_of_width_le {f : Field} {i : Nat} (h : f.width ≤ i) : (Field.mask f).getLsbD i = false := by
  simp [Field.mask, BitVec.getLsbD_ofNat, Nat.testBit_two_pow_sub_one, h]

/-- DEC over the field table: each field's bits of the reply, shifted down and masked (R71). -/
theorem Mirror.get_storeReply (m : Mirror) (f : Field) (q : Frame) :
    (m.storeReply f.reg q).get f = (q >>> f.lo) &&& Field.mask f := by
  cases f <;> rfl

/-- What a field puts on the link for a cell's value: its low bits, at the field's offset (R70). -/
def Field.bits (f : Field) (c : Cell) : Frame := (c &&& Field.mask f) <<< f.lo

/-- ENC over the field table: the address and the bits of every field (R70). -/
theorem Mirror.encode_eq_foldl (m : Mirror) (r : Reg) :
    m.encode r = r.fields.foldl (fun a g => a ||| Field.bits g (m.get g)) (r.addr.setWidth 16 <<< 12) := by
  cases r <;>
    simp [Mirror.encode, Mirror.get, CtrlCells.enc, TorqueCells.enc, OffCells.enc, BlankCells.enc, DecayCells.enc,
      StallCells.enc, DriveCells.enc, StatusCells.enc, Reg.fields, Reg.addr, Field.bits, Field.mask, Field.width, Field.lo]

theorem Field.bits_getLsbD_of_outside {f : Field} {i : Nat} (c : Cell) (h : ¬(f.lo ≤ i ∧ i < f.lo + f.width)) :
    (Field.bits f c).getLsbD i = false := by
  by_cases hlo : f.lo ≤ i
  · have hw : f.width ≤ i - f.lo := by omega
    simp [Field.bits, Field.mask_getLsbD_of_width_le hw]
  · simp [Field.bits, Nat.lt_of_not_le hlo]

theorem getLsbD_foldl_or (g : Field → Frame) (fs : List Field) (a : Frame) (i : Nat) :
    (fs.foldl (fun a f => a ||| g f) a).getLsbD i = (a.getLsbD i || fs.any fun f => (g f).getLsbD i) := by
  induction fs generalizing a with
  | nil => simp
  | cons f fs ih => simp [ih, Bool.or_assoc]

/-- A written cell reaches only its own field's bits of its register's frame, whatever the value (R15). -/
theorem Mirror.encode_set_getLsbD_of_outside (m : Mirror) {f : Field} (v : Cell) {r : Reg} {i : Nat}
    (h : ¬(f.reg = r ∧ f.lo ≤ i ∧ i < f.lo + f.width)) :
    ((m.set f v).encode r).getLsbD i = (m.encode r).getLsbD i := by
  by_cases hr : f.reg = r
  · have hout : ¬(f.lo ≤ i ∧ i < f.lo + f.width) := fun hin => h ⟨hr, hin⟩
    have hbits : ∀ g, (Field.bits g ((m.set f v).get g)).getLsbD i = (Field.bits g (m.get g)).getLsbD i := by
      intro g
      by_cases hg : g = f
      · subst hg
        rw [Field.bits_getLsbD_of_outside _ hout, Field.bits_getLsbD_of_outside _ hout]
      · rw [Mirror.get_set_of_ne m f g v hg]
    simp only [Mirror.encode_eq_foldl, getLsbD_foldl_or, hbits]
  · rw [Mirror.encode_set_of_ne m f v r hr]

/-! ### Writes that keep the fit -/

theorem Field.fits_iff (f : Field) (c : Cell) : Field.fits f c = true ↔ c.toNat < 2 ^ f.width :=
  decide_eq_true_iff

theorem Mirror.fits_defaults : Mirror.defaults.fits := by
  intro f
  have hdef : Mirror.defaults.get f = (Config.defaults f).setWidth 16 := Mirror.get_ofFields _ f
  rw [hdef, Field.fits_iff, BitVec.toNat_setWidth]
  exact (Nat.mod_le _ _).trans_lt (Config.defaults f).isLt

theorem Mirror.fits_storeReply_cell (m : Mirror) (f : Field) (q : Frame) :
    Field.fits f ((m.storeReply f.reg q).get f) = true := by
  rw [Mirror.get_storeReply, Field.fits_iff, BitVec.toNat_and]
  exact Nat.and_le_right.trans_lt (Field.mask_toNat_lt f)

theorem Mirror.fits.storeReply {m : Mirror} (hm : m.fits) (r : Reg) (q : Frame) : (m.storeReply r q).fits := by
  intro f
  by_cases hf : f.reg = r
  · exact hf ▸ Mirror.fits_storeReply_cell m f q
  · rw [Mirror.storeReply_get_of_ne m r q f hf]
    exact hm f

theorem Mirror.fits.set {m : Mirror} (hm : m.fits) {f : Field} {v : Cell} (hv : v.toNat < 2 ^ f.width) :
    (m.set f v).fits := by
  intro g
  by_cases hg : g = f
  · rw [hg, Mirror.get_set_self]
    exact (Field.fits_iff f v).2 hv
  · rw [Mirror.get_set_of_ne m f g v hg]
    exact hm g

theorem Mirror.fits.clearStatus {m : Mirror} (hm : m.fits) : m.clearStatus.fits := by
  intro f
  rw [Mirror.clearStatus_get]
  split
  · exact (Field.fits_iff f 0).2 (Nat.two_pow_pos f.width)
  · exact hm f

theorem verifiedWriteOf_fits {m m' : Mirror} {i : Instr} {op : Op} {r : Reg} (hm : m.fits)
    (h : verifiedWriteOf m i = some (op, r, m')) : m'.fits := by
  cases i with
  | enable =>
    cases h
    exact hm.set (f := .ctrlEnbl) (by decide)
  | disable =>
    cases h
    exact hm.set (f := .ctrlEnbl) (by decide)
  | writeCtrl | writeTorque | writeOff | writeBlank | writeDecay | writeStall | writeDrive =>
    cases h
    exact hm
  | _ => cases h

theorem statusWriteOf_fits {m m' : Mirror} {i : Instr} {op : Op} (hm : m.fits)
    (h : statusWriteOf m i = some (op, m')) : m'.fits := by
  unfold statusWriteOf at h
  split at h <;> cases h
  · exact hm
  · exact hm.clearStatus

theorem bulkWriteOf_fits {m m' : Mirror} {i : Instr} {op : Op} (hm : m.fits)
    (h : bulkWriteOf m i = some (op, m')) : m'.fits := by
  unfold bulkWriteOf at h
  split at h <;> cases h
  · exact hm
  · exact Mirror.fits_defaults

/-- An accepted command keeps the fit, or is a SETF whose value does not fit its field. -/
theorem exec_command_fits {i : Instr} {s t : State} (hc : i.isCommand = true) (hp : s.phase = .idle)
    (hm : s.mirror.fits) (h : exec i s = .next t) :
    t.mirror.fits ∨ ∃ f v, i = .setf f v ∧ 2 ^ f.width ≤ v.toNat := by
  rcases exec_command_cases hc hp h with ⟨f, v, hi, rfl⟩ | ⟨-, rfl⟩ | ⟨_, _, -, rfl⟩ | ⟨_, _, m, hw, rfl⟩ |
    ⟨_, m, hw, rfl⟩ | ⟨-, rfl⟩ | ⟨_, m, hw, rfl⟩
  · rcases Nat.lt_or_ge v.toNat (2 ^ f.width) with hv | hv
    · exact .inl (hm.set hv)
    · exact .inr ⟨f, v, hi, hv⟩
  · exact .inl hm
  · exact .inl hm
  · exact .inl (verifiedWriteOf_fits hm hw)
  · exact .inl (statusWriteOf_fits hm hw)
  · exact .inl hm
  · exact .inl (bulkWriteOf_fits hm hw)

/-! ### Steps that leave the mirror -/

@[simp] theorem finish_mirror (res : Result) (s : State) : (finish res s).mirror = s.mirror := by
  rcases finish_cases res s with ⟨-, h⟩ | ⟨-, h⟩ <;> rw [h]

@[simp] theorem hostTurn_mirror (s : State) : (hostTurn s).mirror = s.mirror := by
  unfold hostTurn
  split <;> rfl

@[simp] theorem sendWrite_mirror (f : Frame) (s : State) : (sendWrite f s).mirror = s.mirror := by
  rcases sendWrite_cases f s with ⟨_, _, _, ⟨-, h⟩ | ⟨-, h⟩ | ⟨-, -, h⟩⟩ | ⟨-, h⟩ <;> simp [h]

@[simp] theorem sendRead_mirror (r : Reg) (s : State) : (sendRead r s).mirror = s.mirror := by
  rcases sendRead_cases r s with ⟨_, _, _, ⟨-, h⟩ | ⟨-, h⟩ | ⟨-, -, h⟩⟩ | ⟨-, h⟩ <;> simp [h]

@[simp] theorem encodePhase_mirror (s : State) : (encodePhase s).mirror = s.mirror := rfl

@[simp] theorem statusEncodePhase_mirror (s : State) : (statusEncodePhase s).mirror = s.mirror := rfl

@[simp] theorem raiseWriteExhausted_mirror (s : State) : (raiseWriteExhausted s).mirror = s.mirror := finish_mirror _ _

@[simp] theorem comparePhase_mirror (s : State) : (comparePhase s).mirror = s.mirror := by
  unfold comparePhase
  split_ifs <;> simp

@[simp] theorem backoffPhase_mirror (s : State) : (backoffPhase s).mirror = s.mirror := by
  rcases backoffPhase_cases s with ⟨_, h⟩ | ⟨-, h⟩ <;> rw [h]

@[simp] theorem bulkNextPhase_mirror (s : State) : (bulkNextPhase s).mirror = s.mirror := by
  simp [bulkNextPhase, apply_ite State.mirror]

@[simp] theorem readDecodePhase_mirror (s : State) :
    (readDecodePhase s).mirror = s.mirror.storeReply (Reg.ofAddr s.cur) s.rbf := finish_mirror _ _

/-- A step writes the mirror only by decoding a reply in R_DECODE or by accepting a command (R15, R17). -/
theorem step_mirror_cases {s t : State} (h : step s = .next t) :
    t.mirror = s.mirror ∨ (s.phase = .rDecode ∧ t.mirror = s.mirror.storeReply (Reg.ofAddr s.cur) s.rbf) ∨
    (s.phase = .idle ∧ s.cmdValid = true ∧
      ∃ i, decodeCommand s.cw = some i ∧ i.isCommand = true ∧ exec i s = .next t) := by
  rcases step_cases h with ⟨-, -, rfl⟩ | hcmd | ⟨-, rfl⟩ | ⟨-, rfl⟩ | ⟨-, rfl⟩ | ⟨-, rfl⟩ | ⟨-, rfl⟩ | ⟨-, rfl⟩ |
    ⟨-, rfl⟩ | ⟨-, rfl⟩ | ⟨hp, rfl⟩ | ⟨-, rfl⟩
  · exact .inl (hostTurn_mirror s)
  · exact .inr (.inr hcmd)
  · exact .inl (encodePhase_mirror s)
  · exact .inl (sendWrite_mirror _ s)
  · exact .inl (sendRead_mirror _ s)
  · exact .inl (comparePhase_mirror s)
  · exact .inl (backoffPhase_mirror s)
  · exact .inl (statusEncodePhase_mirror s)
  · exact .inl (sendWrite_mirror _ s)
  · exact .inl (sendRead_mirror _ s)
  · exact .inr (.inl ⟨hp, readDecodePhase_mirror s⟩)
  · exact .inl (bulkNextPhase_mirror s)

/-- Only a SETF whose value does not fit breaks the fit (R15). -/
theorem step_fits {s t : State} (hm : s.mirror.fits) (h : step s = .next t) :
    t.mirror.fits ∨ (s.phase = .idle ∧ s.cmdValid = true ∧
      ∃ f v, decode (.command s.cw) = some (.setf f v) ∧ 2 ^ f.width ≤ v.toNat) := by
  rcases step_mirror_cases h with heq | ⟨-, heq⟩ | ⟨hp, hv, i, hd, hc, he⟩
  · exact .inl (heq ▸ hm)
  · exact .inl (heq ▸ hm.storeReply _ _)
  · rcases exec_command_fits hc hp hm he with hfit | ⟨f, v, rfl, hbreach⟩
    · exact .inl hfit
    · exact .inr ⟨hp, hv, f, v, hd, hbreach⟩

/-- SETF completes in its own step, whatever the value (R100). -/
theorem exec_setf {s : State} (f : Field) (v : BitVec 16) (hp : s.phase = .idle) :
    exec (.setf f v) s = .next (done .ok { s with mirror := s.mirror.set f v, cmdValid := false }) :=
  accept_idle (fun s => done .ok { s with mirror := s.mirror.set f v }) hp

end Sys2Proof.Machine

open Sys2Proof Sys2Proof.Machine

/-- Settles O42: clause by clause, from the codec over the field table and the inversion of the steps that write the
mirror. -/
theorem fitLaw : Obligations.FitLaw := by
  unfold Obligations.FitLaw
  refine ⟨Mirror.fits_defaults, ?_, fun _ _ => step_fits, ?_, ?_⟩
  · rintro m _ q f rfl
    exact Mirror.fits_storeReply_cell m f q
  · intro f v s hp
    exact ⟨_, exec_setf f v hp, rfl, rfl⟩
  · intro m f v r i h
    exact Mirror.encode_set_getLsbD_of_outside m v h
end

section
/-! SUPPORT. The codec bit by bit (spec/40_codec.md): which bits of a register's frame its fields cover, and so why the
fields' order does not matter, why OR and sum agree, and why the address stands whatever the cells hold. -/

namespace Sys2Proof.Machine

/-! ### The field table -/

theorem Reg.mem_fields {f : Field} {r : Reg} : f ∈ r.fields ↔ f.reg = r := by
  cases r <;> cases f <;> decide

/-- A register's fields stand most significant first, and none reaches into the one before it (R12). -/
theorem Reg.fields_pairwise (r : Reg) : r.fields.Pairwise fun f g => g.lo + g.width ≤ f.lo := by
  cases r <;> decide

/-- Every field lies in the payload, bits 11:0 (R12). -/
theorem Field.lo_add_width_le (f : Field) : f.lo + f.width ≤ 12 := by
  cases f <;> decide

/-- The payload bits of a register that some field covers (R58). -/
def Reg.covered (r : Reg) : Frame := 0x0FFF &&& ~~~r.reserved

/-- All of a field's bits are payload bits of its register that are not reserved (R58, D4). -/
theorem Field.covered_and_mask (f : Field) : (Reg.covered f.reg >>> f.lo) &&& Field.mask f = Field.mask f := by
  cases f <;> decide

/-! ### The bits of one field -/

theorem Field.and_mask_toNat (f : Field) (c : Cell) : (c &&& Field.mask f).toNat = c.toNat % 2 ^ f.width := by
  have hmask : (Field.mask f).toNat = 2 ^ f.width - 1 := by cases f <;> rfl
  rw [BitVec.toNat_and, hmask, Nat.and_two_pow_sub_one_eq_mod]

/-- No bit of a masked value is lost at its field's offset (R70). -/
theorem Field.bits_toNat (f : Field) (c : Cell) : (Field.bits f c).toNat = c.toNat % 2 ^ f.width * 2 ^ f.lo := by
  have hlt : c.toNat % 2 ^ f.width * 2 ^ f.lo < 2 ^ 16 :=
    calc c.toNat % 2 ^ f.width * 2 ^ f.lo
        < 2 ^ f.width * 2 ^ f.lo :=
          Nat.mul_lt_mul_of_pos_right (Nat.mod_lt _ (Nat.two_pow_pos _)) (Nat.two_pow_pos _)
      _ = 2 ^ (f.lo + f.width) := by rw [Nat.pow_add, Nat.mul_comm]
      _ ≤ 2 ^ 12 := Nat.pow_le_pow_right (by decide) (Field.lo_add_width_le f)
      _ < 2 ^ 16 := by decide
  rw [Field.bits, BitVec.toNat_shiftLeft, Field.and_mask_toNat, Nat.shiftLeft_eq, Nat.mod_eq_of_lt hlt]

theorem Field.bits_and_bits {f g : Field} (h : g.lo + g.width ≤ f.lo) (c d : Cell) :
    Field.bits f c &&& Field.bits g d = 0#16 := by
  apply BitVec.eq_of_getLsbD_eq
  intro i _
  rw [BitVec.getLsbD_and, BitVec.getLsbD_zero]
  by_cases hi : i < f.lo
  · rw [Field.bits_getLsbD_of_outside c (by omega), Bool.false_and]
  · rw [Field.bits_getLsbD_of_outside d (by omega), Bool.and_false]

/-! ### The address of a frame -/

/-- A register's address in its place, bits 14:12 of a frame (R51, R70). -/
def Reg.addrBits (r : Reg) : Frame := r.addr.setWidth 16 <<< 12

theorem Reg.addrBits_toNat (r : Reg) : (Reg.addrBits r).toNat = 4096 * r.addr.toNat := by
  cases r <;> rfl

theorem Reg.addrBits_getLsbD_of_lt (r : Reg) {i : Nat} (hi : i < 12) : (Reg.addrBits r).getLsbD i = false := by
  simp [Reg.addrBits, hi]

theorem Reg.addrBits_and_bits (r : Reg) (f : Field) (c : Cell) : Reg.addrBits r &&& Field.bits f c = 0#16 := by
  apply BitVec.eq_of_getLsbD_eq
  intro i _
  rw [BitVec.getLsbD_and, BitVec.getLsbD_zero]
  by_cases hi : i < 12
  · rw [Reg.addrBits_getLsbD_of_lt r hi, Bool.false_and]
  · have hpayload := Field.lo_add_width_le f
    rw [Field.bits_getLsbD_of_outside c (by omega), Bool.and_false]

/-! ### A register's frame -/

theorem foldl_or_perm {fs gs : List Field} (h : fs.Perm gs) (g : Field → Frame) (a : Frame) :
    fs.foldl (fun a f => a ||| g f) a = gs.foldl (fun a f => a ||| g f) a := by
  refine h.foldl_eq' (fun x _ y _ z => ?_) a
  rw [BitVec.or_assoc, BitVec.or_comm (g x), ← BitVec.or_assoc]

/-- An OR of values that share no bit is their sum. -/
theorem toNat_foldl_or (g : Field → Frame) {fs : List Field} {a : Frame} (ha : ∀ f ∈ fs, a &&& g f = 0#16)
    (hfs : fs.Pairwise fun f h => g f &&& g h = 0#16) :
    (fs.foldl (fun a f => a ||| g f) a).toNat = a.toNat + (fs.map fun f => (g f).toNat).sum := by
  induction fs generalizing a with
  | nil => rfl
  | cons f fs ih =>
    obtain ⟨haf, hafs⟩ := List.forall_mem_cons.1 ha
    obtain ⟨hf, htail⟩ := List.pairwise_cons.1 hfs
    have hstart : (a ||| g f).toNat = a.toNat + (g f).toNat := by
      rw [← BitVec.add_eq_or_of_and_eq_zero _ _ haf, BitVec.toNat_add_of_and_eq_zero haf]
    have hrest : ∀ h ∈ fs, (a ||| g f) &&& g h = 0#16 := fun h hh => by
      rw [BitVec.and_or_distrib_right, hafs h hh, hf h hh, BitVec.or_self]
    rw [List.foldl_cons, ih hrest htail, hstart, List.map_cons, List.sum_cons, Nat.add_assoc]

theorem Mirror.encode_eq_foldl_of_perm (m : Mirror) {r : Reg} {fs : List Field} (h : fs.Perm r.fields) :
    m.encode r = fs.foldl (fun a f => a ||| Field.bits f (m.get f)) (Reg.addrBits r) := by
  rw [foldl_or_perm h, m.encode_eq_foldl r, Reg.addrBits]

theorem Mirror.encode_toNat (m : Mirror) (r : Reg) :
    (m.encode r).toNat =
      4096 * r.addr.toNat + (r.fields.map fun f => (m.get f).toNat % 2 ^ f.width * 2 ^ f.lo).sum := by
  have hdisjoint : r.fields.Pairwise fun f g => Field.bits f (m.get f) &&& Field.bits g (m.get g) = 0#16 :=
    (Reg.fields_pairwise r).imp fun h => Field.bits_and_bits h _ _
  rw [m.encode_eq_foldl_of_perm (.refl r.fields), toNat_foldl_or _ (fun f _ => Reg.addrBits_and_bits r f _) hdisjoint,
    Reg.addrBits_toNat r]
  simp only [Field.bits_toNat]

/-- Where no field reaches, a frame has its register's address and nothing else (R70, R90). -/
theorem Mirror.encode_getLsbD_of_uncovered (m : Mirror) {r : Reg} {i : Nat}
    (h : ∀ f : Field, f.reg = r → ¬(f.lo ≤ i ∧ i < f.lo + f.width)) :
    (m.encode r).getLsbD i = (Reg.addrBits r).getLsbD i := by
  have hfields : (r.fields.any fun f => (Field.bits f (m.get f)).getLsbD i) = false := by
    rw [List.any_eq_false]
    intro f hf
    rw [Field.bits_getLsbD_of_outside _ (h f (Reg.mem_fields.1 hf))]
    exact Bool.false_ne_true
  rw [m.encode_eq_foldl_of_perm (.refl r.fields), getLsbD_foldl_or, hfields, Bool.or_false]

theorem Mirror.encode_getLsbD_of_ge (m : Mirror) (r : Reg) {i : Nat} (hi : 12 ≤ i) :
    (m.encode r).getLsbD i = (Reg.addrBits r).getLsbD i :=
  m.encode_getLsbD_of_uncovered fun f _ hin => by
    have hpayload := Field.lo_add_width_le f
    omega

/-- A register's frame is a function of its own cells (R70). -/
theorem Mirror.encode_congr {m m' : Mirror} {r : Reg} (h : ∀ f : Field, f.reg = r → m'.get f = m.get f) :
    m'.encode r = m.encode r := by
  rw [m.encode_eq_foldl r, m'.encode_eq_foldl r]
  exact List.foldl_ext _ _ _ fun a f hf => by rw [h f (Reg.mem_fields.1 hf)]

theorem Mirror.encode_address (m : Mirror) (r : Reg) : (m.encode r).extractLsb' 12 3 = r.addr := by
  have haddr : (Reg.addrBits r).extractLsb' 12 3 = r.addr := by cases r <;> rfl
  rw [← haddr]
  apply BitVec.eq_of_getLsbD_eq
  intro i _
  rw [BitVec.getLsbD_extractLsb', BitVec.getLsbD_extractLsb', m.encode_getLsbD_of_ge r (Nat.le_add_right 12 i)]

theorem Mirror.encode_writeFlag (m : Mirror) (r : Reg) : (m.encode r).getLsbD 15 = false := by
  rw [m.encode_getLsbD_of_ge r (by decide)]
  cases r <;> rfl

/-! ### A decoded reply -/

/-- A field takes only covered bits of a reply, so the others may be cleared first (R71). -/
theorem Mirror.get_storeReply_covered (m : Mirror) (f : Field) (q : Frame) :
    (m.storeReply f.reg q).get f = ((q &&& Reg.covered f.reg) >>> f.lo) &&& Field.mask f := by
  rw [Mirror.get_storeReply, BitVec.ushiftRight_and_distrib, BitVec.and_assoc, Field.covered_and_mask]

theorem Mirror.storeReply_congr (m : Mirror) {r : Reg} {q q' : Frame} (h : q' &&& Reg.covered r = q &&& Reg.covered r) :
    m.storeReply r q' = m.storeReply r q := by
  apply Mirror.ext_get
  intro f
  by_cases hf : f.reg = r
  · subst hf
    rw [Mirror.get_storeReply_covered, Mirror.get_storeReply_covered, h]
  · rw [Mirror.storeReply_get_of_ne m r q' f hf, Mirror.storeReply_get_of_ne m r q f hf]

/-! ### The read request -/

theorem rdreq_readFlag (a : Addr) : (rdreq a).getLsbD 15 = true := by revert a; decide

theorem rdreq_address (a : Addr) : (rdreq a).extractLsb' 12 3 = a := by revert a; decide

theorem rdreq_payload (a : Addr) : (rdreq a).extractLsb' 0 12 = 0 := by revert a; decide

theorem rdreq_and_payloadMask (a : Addr) : rdreq a &&& 0x0FFF = 0 := by revert a; decide

end Sys2Proof.Machine

open Sys2Proof Sys2Proof.Machine

/-- Settles O6: the fields of a register share no bit with each other or with the address, so OR commutes into any order
and is a sum; what no field covers is the address. -/
theorem encodeLaw : Obligations.EncodeLaw := by
  unfold Obligations.EncodeLaw
  intro m r
  refine ⟨fun fs h => m.encode_eq_foldl_of_perm h, m.encode_toNat r, fun i hi h => ?_,
    fun m' h => Mirror.encode_congr h⟩
  rw [m.encode_getLsbD_of_uncovered h, Reg.addrBits_getLsbD_of_lt r hi]

/-- Settles O7: DEC over the field table, the fit of a decoded cell, and that the fields take covered bits only. -/
theorem decodeLaw : Obligations.DecodeLaw := by
  unfold Obligations.DecodeLaw
  intro m r q
  refine ⟨?_, fun f hf => Mirror.storeReply_get_of_ne m r q f hf, ?_⟩
  · rintro f rfl
    exact ⟨Mirror.get_storeReply m f q, (Field.fits_iff f _).1 (Mirror.fits_storeReply_cell m f q)⟩
  · intro q' h
    rw [BitVec.and_assoc, BitVec.and_assoc] at h
    exact m.storeReply_congr h

/-- Settles O9: no field reaches bits 15:12 of a write frame, so they are its address alone, whatever the cells hold. -/
theorem frameInvariants : Obligations.FrameInvariants := by
  unfold Obligations.FrameInvariants
  exact ⟨fun m r => ⟨m.encode_address r, m.encode_writeFlag r⟩,
    fun a => ⟨rdreq_readFlag a, rdreq_address a, rdreq_payload a⟩⟩

/-- Settles O10: the formula is the definition of the read request; its eight values are computed. -/
theorem readRequestFrames : Obligations.ReadRequestFrames := by
  unfold Obligations.ReadRequestFrames
  exact ⟨fun a => ⟨rfl, rdreq_and_payloadMask a⟩, by decide⟩
end

section
/-! SUPPORT. The field setter SETF (spec/41_mirror_setf.md R100): its word, what its step writes in IDLE, and its
acceptance only there. -/

namespace Sys2Proof.Machine

/-- The reg field of a SETF word is 0 and leaves no bit in it (R60, R62). -/
theorem encode_setf (f : Field) (v : BitVec 16) :
    encode (.setf f v) = .command (0x10000000#32 ||| (f.fid.setWidth 32 <<< 16) ||| v.setWidth 32) := by
  have hreg : (0x1#4).setWidth 32 <<< 28 ||| (0#3).setWidth 32 <<< 24 = 0x10000000#32 := by decide
  rw [encode, commandWord, BitVec.ofNat_eq_ofNat, BitVec.ofNat_eq_ofNat, hreg]

/-- A command that completes in the step of its acceptance has never left IDLE: `Done` only records (R21). -/
theorem done_of_idle {s : State} (res : Result) (h : s.phase = .idle) : done res s = State.record [.done res] s := by
  obtain ⟨⟩ := s
  cases h
  rfl

/-- SETF is accepted in IDLE only (R20, R100). -/
theorem exec_setf_busy {s : State} (f : Field) (v : BitVec 16) (h : s.phase ≠ .idle) :
    exec (.setf f v) s = .next s :=
  accept_busy (fun s => done .ok { s with mirror := s.mirror.set f v }) h

end Sys2Proof.Machine

open Sys2Proof Sys2Proof.Machine

/-- Settles O18: the cell is read back by `Mirror.get_set_self`, the others by `Mirror.get_set_of_ne`; the step that writes
it records `Done(OK)` and leaves everything else but the port. -/
theorem setfStoresOneCell : Obligations.SetfStoresOneCell := by
  unfold Obligations.SetfStoresOneCell
  refine fun f v => ⟨encode_setf f v, fun s hidle => ?_, fun s hbusy => exec_setf_busy f v hbusy⟩
  refine ⟨_, s.mirror.set f v, exec_setf f v hidle, s.mirror.get_set_self f v,
    fun g hg => s.mirror.get_set_of_ne f g v hg, ?_⟩
  rw [done_of_idle]
  · rfl
  · exact hidle
end

section
/-! SUPPORT. The read of one register (spec/42_read.md R105): its word, its acceptance in IDLE only, and its two steps,
the exchange of R_EXCHANGE and the decode of R_DECODE. -/

namespace Sys2Proof.Machine

/-! ### The command -/

/-- The fid and val fields of a READ.r word are 0 and leave no bit in it (R60, R62). -/
theorem encode_readOf (r : Reg) :
    encode (Instr.readOf r) = .command (0x20000000#32 ||| (r.addr.setWidth 32 <<< 24)) := by
  cases r <;> decide

theorem readOf_readOf (r : Reg) : readOf (Instr.readOf r) = some (.read, r) := by
  cases r <;> rfl

/-- The meaning of every read command is one operation: the start of the read of its register (R105, R147). -/
theorem exec_of_readOf {i : Instr} {op : Op} {r : Reg} (h : readOf i = some (op, r)) (s : State) :
    exec i s = accept (startRead op r) s := by
  unfold readOf at h
  split at h <;> cases h <;> rfl

/-! ### The two steps -/

/-- The acceptance of a read takes no answer: the exchange gets the one the Transport had before it (R45). -/
theorem takeAnswer_startRead {s s1 : State} {q : Frame} (op : Op) (r : Reg) (h : s.takeAnswer = some (q, s1)) :
    (startRead op r { s with cmdValid := false }).takeAnswer =
      some (q, startRead op r { s1 with cmdValid := false }) := by
  simp only [State.takeAnswer, startRead, State.goto_transport, State.goto_freeDraws] at h ⊢
  split at h <;> cases h <;> simp only [*] <;> rfl

/-- R_EXCHANGE with an answer: the one framed exchange, its reply in `rbf` (R105). -/
theorem step_rExchange_answered {s s1 : State} {q : Frame} (h : s.takeAnswer = some (q, s1)) (hp : s.phase = .rExchange)
    (hs : s.select = false) :
    step s = .next { s with
      transport := s1.transport, freeDraws := s1.freeDraws, phase := .rDecode, rbf := q,
      history := s.history ++ exchangeEvents (rdreq s.cur) q } := by
  rw [step_request (.inr hp), sendRead, exchange_answered _ _ hs h, Reg.addr_ofAddr, takeAnswer_frame h]
  simp only [hp, State.goto, hs]

/-- R_DECODE of a single read: the decode completes the command with `Done(OK)`, whatever the reply (R105). -/
theorem step_rDecode_of_single {s : State} {r : Reg} (hp : s.phase = .rDecode) (hcur : s.cur = r.addr)
    (hop : s.op.isBulk = false) :
    step s = .next { s with
      mirror := s.mirror.storeReply r s.rbf, phase := .idle, history := s.history ++ [.done .ok] } := by
  rw [step_rDecode hp, readDecodePhase, hcur, Reg.ofAddr_addr, finish_of_single]
  exact hop

/-- R_DECODE inside a bulk command: the decode goes back to B_NEXT, and `acc` stands (R105, R140). -/
theorem step_rDecode_of_bulk {s : State} {r : Reg} (hp : s.phase = .rDecode) (hcur : s.cur = r.addr)
    (hop : s.op.isBulk = true) :
    step s = .next { s with mirror := s.mirror.storeReply r s.rbf, phase := .bNext } := by
  rw [step_rDecode hp, readDecodePhase, hcur, Reg.ofAddr_addr, finish_of_bulk]
  · simp
  · exact hop

end Sys2Proof.Machine

open Sys2Proof Sys2Proof.Machine

/-- Settles O19: the acceptance, the exchange and the decode are one rule each, and the reply of the exchange is the one
the Transport had for the state before the acceptance. -/
theorem readRegisterCompletes : Obligations.ReadRegisterCompletes := by
  unfold Obligations.ReadRegisterCompletes
  intro r
  have hexec : ∀ s, exec (Instr.readOf r) s = accept (startRead .read r) s := exec_of_readOf (readOf_readOf r)
  refine ⟨encode_readOf r, fun s hbusy => ?_, fun s s1 q hidle hsel hans => ?_, fun s hp hop hcur => ?_⟩
  · rw [hexec, accept_busy _ hbusy]
  · have haccept : exec (Instr.readOf r) s = .next (startRead .read r { s with cmdValid := false }) := by
      rw [hexec, accept_idle _ hidle]
    have hexchange := step_rExchange_answered (takeAnswer_startRead .read r hans) rfl hsel
    refine ⟨_, _, _, haccept, rfl, hexchange, ?_, step_rDecode_of_single (r := r) rfl rfl (by rfl), ?_⟩
    · rw [takeAnswer_frame hans]
      rfl
    · rw [takeAnswer_frame hans, ← hidle]
      rfl
  · exact step_rDecode_of_bulk hp hcur (by rw [hop]; rfl)
end

section
/-! SUPPORT. The phases of a verified write (spec/43_verified_write.md): the two exchanges of an attempt, the compare of
the twelve payload bits, and the readback, which no step but the compare and R_DECODE depends on and which, where it
matched, is what the mirror's register decodes to. -/

namespace Sys2Proof.Machine

/-! ### The two exchanges of an attempt -/

/-- The Transport's answers do not depend on the phase and the history (R45). -/
theorem takeAnswer_goto_record {s s1 : State} {q : Frame} (p : Phase) (es : List Event)
    (h : s.takeAnswer = some (q, s1)) :
    (State.goto p (State.record es s)).takeAnswer = some (q, State.goto p (State.record es s1)) := by
  simp only [State.takeAnswer, State.goto_transport, State.goto_freeDraws, State.record_transport,
    State.record_freeDraws] at h ⊢
  split at h <;> cases h <;> rfl

theorem takeAnswer_select {s s1 : State} {q : Frame} (h : s.takeAnswer = some (q, s1)) : s1.select = s.select := by
  rw [takeAnswer_frame h]

theorem takeAnswer_history {s s1 : State} {q : Frame} (h : s.takeAnswer = some (q, s1)) : s1.history = s.history := by
  rw [takeAnswer_frame h]

theorem takeAnswer_phase {s s1 : State} {q : Frame} (h : s.takeAnswer = some (q, s1)) : s1.phase = s.phase := by
  rw [takeAnswer_frame h]

theorem takeAnswer_cur {s s1 : State} {q : Frame} (h : s.takeAnswer = some (q, s1)) : s1.cur = s.cur := by
  rw [takeAnswer_frame h]

/-- W_TRANSMIT with an answer: one exchange of `txf`, whose reply stands in the history only (R122). -/
theorem step_wTransmit_answered {s s1 : State} {w : Frame} (hp : s.phase = .wTransmit) (hs : s.select = false)
    (h : s.takeAnswer = some (w, s1)) :
    step s = .next (State.goto .wVerify (State.record (exchangeEvents s.txf w) s1)) := by
  have hp1 : s1.phase = .wTransmit := (takeAnswer_phase h).trans hp
  have hs1 : s1.select = false := (takeAnswer_select h).trans hs
  rw [step_transmit (.inl hp), sendWrite, exchange_answered _ _ hs h]
  simp only [hp1, ← hs1, ← takeAnswer_history h]
  rfl

/-- W_VERIFY with an answer: one exchange of the read request for `cur`, whose reply goes to `rbf` (R123). -/
theorem step_wVerify_answered {s s1 : State} {q : Frame} (hp : s.phase = .wVerify) (hs : s.select = false)
    (h : s.takeAnswer = some (q, s1)) :
    step s = .next { s1 with
      phase := .wCompare, rbf := q, history := s.history ++ exchangeEvents (rdreq s.cur) q } := by
  have hp1 : s1.phase = .wVerify := (takeAnswer_phase h).trans hp
  have hs1 : s1.select = false := (takeAnswer_select h).trans hs
  rw [step_request (.inl hp), sendRead, exchange_answered _ _ hs h, Reg.addr_ofAddr]
  simp only [hp1, ← hs1]
  rfl

/-! ### The compare -/

theorem payloadMask_getLsbD (i : Nat) : (0x0FFF : Frame).getLsbD i = decide (i < 12) := by
  have hmask : (0x0FFF : Frame) = BitVec.ofNat 16 (2 ^ 12 - 1) := rfl
  rw [hmask, BitVec.getLsbD_ofNat, Nat.testBit_two_pow_sub_one, ← Bool.decide_and, decide_eq_decide]
  omega

/-- The compare is of bits 11:0, one by one, and of no others (R124). -/
theorem payloadsMatch_iff (tx rb : Frame) :
    payloadsMatch tx rb = true ↔ ∀ i, i < 12 → tx.getLsbD i = rb.getLsbD i := by
  rw [payloadsMatch, beq_iff_eq]
  constructor
  · intro h i hi
    have hbit := congrArg (fun x => BitVec.getLsbD x i) h
    simpa only [BitVec.getLsbD_and, payloadMask_getLsbD, hi, decide_true, Bool.and_true] using hbit
  · intro h
    apply BitVec.eq_of_getLsbD_eq
    intro i _
    rw [BitVec.getLsbD_and, BitVec.getLsbD_and, payloadMask_getLsbD]
    by_cases hi : i < 12
    · rw [h i hi]
    · simp only [hi, decide_false, Bool.and_false]

theorem payloadsMatch_eq_false_iff (tx rb : Frame) :
    payloadsMatch tx rb = false ↔ ∃ i, i < 12 ∧ tx.getLsbD i ≠ rb.getLsbD i := by
  rw [← Bool.not_eq_true, payloadsMatch_iff]
  push Not
  rfl

/-! ### What depends on the readback -/

/-- `rbf <- q` (R19). -/
def State.setRbf (q : Frame) (s : State) : State := { s with rbf := q }

/-- An operation that does the same whatever `rbf` holds: only `rbf` itself may come out different. -/
def BlindToRbf (f : State → State) : Prop :=
  ∀ (q : Frame) (s : State), State.setRbf 0 (f (State.setRbf q s)) = State.setRbf 0 (f s)

theorem finish_setRbf (res : Result) (q : Frame) (s : State) :
    finish res (State.setRbf q s) = State.setRbf q (finish res s) := by
  have hop : (State.setRbf q s).op = s.op := rfl
  rcases finish_cases res s with ⟨h, he⟩ | ⟨h, he⟩
  · rw [he, finish_of_bulk res (hop ▸ h)]
    rfl
  · rw [he, finish_of_single res (hop ▸ h)]
    rfl

theorem assertSelect_setRbf (q : Frame) (s : State) :
    (State.setRbf q s).assertSelect = State.setRbf q s.assertSelect := by
  simp only [State.assertSelect, apply_ite (State.setRbf q)]
  rfl

theorem takeAnswer_setRbf (q : Frame) (s : State) :
    (State.setRbf q s).takeAnswer = s.takeAnswer.map fun p => (p.1, State.setRbf q p.2) := by
  rw [State.takeAnswer, State.takeAnswer, State.setRbf]
  dsimp only
  split <;> rfl

theorem exchange_blindToRbf (out : Frame) {cont : Frame → State → State} (hc : ∀ reply, BlindToRbf (cont reply)) :
    BlindToRbf (exchange out cont) := by
  intro q s
  rw [exchange, exchange, assertSelect_setRbf, takeAnswer_setRbf]
  cases s.assertSelect.takeAnswer with
  | none => rfl
  | some p => exact hc p.1 q (State.releaseSelect (State.record [.xchg out p.1] p.2))

theorem sendWrite_blindToRbf (f : Frame) : BlindToRbf (sendWrite f) :=
  exchange_blindToRbf f fun _ q s => by
    have hp : (State.setRbf q s).phase = s.phase := rfl
    simp only [hp, finish_setRbf]
    split <;> rfl

/-- The reply of a read request takes the place of whatever `rbf` held (R37). -/
theorem sendRead_blindToRbf (r : Reg) : BlindToRbf (sendRead r) :=
  exchange_blindToRbf (rdreq r.addr) fun _ _ _ => rfl

theorem hostTurn_blindToRbf : BlindToRbf hostTurn := by
  intro q s
  have hq : (State.setRbf q s).hostQueue = s.hostQueue := rfl
  rw [hostTurn, hostTurn, hq]
  cases s.hostQueue <;> rfl

theorem backoffPhase_blindToRbf : BlindToRbf backoffPhase := by
  intro q s
  have ht : (State.setRbf q s).takeDelay = s.takeDelay.map (State.setRbf q) := by
    rw [State.takeDelay, State.takeDelay, State.setRbf]
    dsimp only
    split <;> rfl
  rw [backoffPhase, backoffPhase, ht]
  cases s.takeDelay <;> rfl

theorem bulkNextPhase_blindToRbf : BlindToRbf bulkNextPhase := by
  intro q s
  simp only [bulkNextPhase, apply_ite (State.setRbf 0)]
  rfl

/-- A command accepted in IDLE hands `rbf` on and does the same whatever it holds. -/
theorem exec_command_setRbf {i : Instr} {s : State} (hc : i.isCommand = true) (hp : s.phase = .idle) (q : Frame) :
    exec i (State.setRbf q s) = mapNext (State.setRbf q) (exec i s) := by
  obtain ⟨⟩ := s
  cases hp
  cases i with
  | wrCtrl _ | wrTorque _ | wrOff _ | wrBlank _ | wrDecay _ | wrStall _ | wrDrive _ | wrStatus _ => cases hc
  | rdCtrl | rdTorque | rdOff | rdBlank | rdDecay | rdStall | rdDrive | rdStatus => cases hc
  | _ => rfl

/-- Outside the compare and R_DECODE a step does the same, `rbf` apart, whatever `rbf` held (R129). -/
theorem step_blind_to_rbf {s : State} (hcompare : s.phase ≠ .wCompare) (hdecode : s.phase ≠ .rDecode) (q : Frame) :
    mapNext (State.setRbf 0) (step (State.setRbf q s)) = mapNext (State.setRbf 0) (step s) := by
  have hnext : ∀ {f : State → State}, BlindToRbf f →
      mapNext (State.setRbf 0) (.next (f (State.setRbf q s))) = mapNext (State.setRbf 0) (.next (f s)) :=
    fun hf => congrArg Host.Outcome.next (hf q s)
  have hp' : (State.setRbf q s).phase = s.phase := rfl
  cases hp : s.phase with rw [hp] at hp'
  | wCompare => exact absurd hp hcompare
  | rDecode => exact absurd hp hdecode
  | idle =>
    cases hv : s.cmdValid with
    | false =>
      rw [step_hostTurn hp hv, step_hostTurn hp' hv]
      exact hnext hostTurn_blindToRbf
    | true =>
      have hcw : (State.setRbf q s).cw = s.cw := rfl
      rw [step_command hp hv, step_command hp' hv, hcw]
      cases hd : decodeCommand s.cw with
      | none => rfl
      | some i =>
        have hexec := exec_command_setRbf (decodeCommand_isCommand hd) hp q
        simp only [hexec]
        cases exec i s <;> rfl
  | wEncode =>
    rw [step_wEncode hp, step_wEncode hp']
    rfl
  | wTransmit =>
    rw [step_transmit (.inl hp), step_transmit (.inl hp')]
    exact hnext (sendWrite_blindToRbf s.txf)
  | wVerify =>
    rw [step_request (.inl hp), step_request (.inl hp')]
    exact hnext (sendRead_blindToRbf (Reg.ofAddr s.cur))
  | wBackoff =>
    rw [step_wBackoff hp, step_wBackoff hp']
    exact hnext backoffPhase_blindToRbf
  | sEncode =>
    rw [step_sEncode hp, step_sEncode hp']
    rfl
  | sTransmit =>
    rw [step_transmit (.inr hp), step_transmit (.inr hp')]
    exact hnext (sendWrite_blindToRbf s.txf)
  | rExchange =>
    rw [step_request (.inr hp), step_request (.inr hp')]
    exact hnext (sendRead_blindToRbf (Reg.ofAddr s.cur))
  | bNext =>
    rw [step_bNext hp, step_bNext hp']
    exact hnext bulkNextPhase_blindToRbf

/-- The compare makes one decision by `rbf`: where two readbacks decide alike, the rest is the same (R124, R129). -/
theorem comparePhase_setRbf {s : State} {q : Frame} (h : payloadsMatch s.txf q = payloadsMatch s.txf s.rbf) :
    comparePhase (State.setRbf q s) = State.setRbf q (comparePhase s) := by
  cases hm : payloadsMatch s.txf s.rbf with
  | true =>
    rw [comparePhase_of_match hm, comparePhase_of_match (s := State.setRbf q s) (h.trans hm), finish_setRbf]
  | false =>
    rcases Nat.lt_or_ge s.att.toNat 10 with ha | ha
    · rw [comparePhase_of_retry hm ha, comparePhase_of_retry (s := State.setRbf q s) (h.trans hm) ha]
      rfl
    · rw [comparePhase_of_exhausted hm ha, comparePhase_of_exhausted (s := State.setRbf q s) (h.trans hm) ha]
      exact finish_setRbf .fail q (State.setErr true s)

/-! ### A write leaves the mirror -/

/-- WRITE.r starts a verified write, or for STATUS the plain one (R120, R135). -/
theorem exec_writeOf (r : Reg) (s : State) :
    exec (Instr.writeOf r) s = accept (if r = .status then startStatusWrite .write else startWrite .write r) s := by
  cases r <;> rfl

theorem exec_writeOf_mirror {r : Reg} {s t : State} (hp : s.phase = .idle)
    (h : exec (Instr.writeOf r) s = .next t) : t.mirror = s.mirror := by
  rw [exec_writeOf, accept_idle _ hp] at h
  cases h
  split <;> rfl

theorem step_mirror_of_isVerifiedWrite {s t : State} (hp : s.phase.isVerifiedWrite = true) (h : step s = .next t) :
    t.mirror = s.mirror := by
  rcases step_mirror_cases h with heq | ⟨hdecode, -⟩ | ⟨hidle, -⟩
  · exact heq
  · rw [hdecode] at hp
    cases hp
  · rw [hidle] at hp
    cases hp

/-! ### A matched readback -/

/-- Two fields of one register lie side by side (R12). -/
theorem Field.disjoint {f g : Field} (hr : g.reg = f.reg) (hne : g ≠ f) :
    f.lo + f.width ≤ g.lo ∨ g.lo + g.width ≤ f.lo := by
  have hpair : f.reg.fields.Pairwise fun f g => f.lo + f.width ≤ g.lo ∨ g.lo + g.width ≤ f.lo :=
    (Reg.fields_pairwise f.reg).imp Or.inr
  have : Std.Symm fun f g : Field => f.lo + f.width ≤ g.lo ∨ g.lo + g.width ≤ f.lo := ⟨fun _ _ => Or.symm⟩
  exact hpair.forall (Reg.mem_fields.2 rfl) (Reg.mem_fields.2 hr) hne.symm

theorem Field.mask_getLsbD_of_lt {f : Field} {i : Nat} (h : i < f.width) : (Field.mask f).getLsbD i = true := by
  have hpayload := Field.lo_add_width_le f
  have hi : i < 16 := by omega
  simp [Field.mask, BitVec.getLsbD_ofNat, Nat.testBit_two_pow_sub_one, h, hi]

theorem Field.bits_getLsbD_of_inside {f : Field} {i : Nat} (c : Cell) (h : i < f.width) :
    (Field.bits f c).getLsbD (f.lo + i) = c.getLsbD i := by
  have hpayload := Field.lo_add_width_le f
  have hi : f.lo + i < 16 := by omega
  rw [Field.bits, BitVec.getLsbD_shiftLeft, Nat.add_sub_cancel_left, BitVec.getLsbD_and, Field.mask_getLsbD_of_lt h]
  simp [hi]

/-- A field's place in its register's frame holds the low bits of its own cell (R70). -/
theorem Mirror.encode_getLsbD_of_inside (m : Mirror) {f : Field} {i : Nat} (h : i < f.width) :
    (m.encode f.reg).getLsbD (f.lo + i) = (m.get f).getLsbD i := by
  have hpayload := Field.lo_add_width_le f
  have hothers : ∀ g ∈ f.reg.fields, g ≠ f → (Field.bits g (m.get g)).getLsbD (f.lo + i) = false := by
    intro g hg hne
    have hside := Field.disjoint (Reg.mem_fields.1 hg) hne
    exact Field.bits_getLsbD_of_outside _ (by omega)
  have hany : (f.reg.fields.any fun g => (Field.bits g (m.get g)).getLsbD (f.lo + i)) = (m.get f).getLsbD i := by
    rw [Bool.eq_iff_iff, List.any_eq_true, ← Field.bits_getLsbD_of_inside (m.get f) h]
    constructor
    · rintro ⟨g, hg, hbit⟩
      by_cases hne : g = f
      · exact hne ▸ hbit
      · rw [hothers g hg hne] at hbit
        cases hbit
    · exact fun hbit => ⟨f, Reg.mem_fields.2 rfl, hbit⟩
  rw [m.encode_eq_foldl_of_perm (.refl f.reg.fields), getLsbD_foldl_or, Reg.addrBits_getLsbD_of_lt _ (by omega),
    Bool.false_or, hany]

/-- Decoding a register's own frame keeps the low bits of each cell, the field's width of them (R89). -/
theorem Mirror.get_storeReply_encode (m : Mirror) (f : Field) :
    (m.storeReply f.reg (m.encode f.reg)).get f = m.get f &&& Field.mask f := by
  rw [Mirror.get_storeReply]
  apply BitVec.eq_of_getLsbD_eq
  intro i _
  rw [BitVec.getLsbD_and, BitVec.getLsbD_and, BitVec.getLsbD_ushiftRight]
  by_cases hi : i < f.width
  · rw [m.encode_getLsbD_of_inside hi]
  · rw [Field.mask_getLsbD_of_width_le (Nat.le_of_not_lt hi), Bool.and_false, Bool.and_false]

/-- Replies with the same payload decode to the same cells (R71). -/
theorem Mirror.storeReply_of_payloadsMatch (m : Mirror) (r : Reg) {q q' : Frame} (h : payloadsMatch q q' = true) :
    m.storeReply r q' = m.storeReply r q := by
  have hpayload : q &&& 0x0FFF = q' &&& 0x0FFF := beq_iff_eq.1 h
  apply m.storeReply_congr
  rw [Reg.covered, ← BitVec.and_assoc, ← BitVec.and_assoc, hpayload]

end Sys2Proof.Machine

open Sys2Proof Sys2Proof.Machine

/-- Settles O31: the step of W_TRANSMIT, and after it the step of W_VERIFY, whose answer is the next one the Transport
has. -/
theorem transmitThenVerify : Obligations.TransmitThenVerify := by
  unfold Obligations.TransmitThenVerify
  intro s s1 s2 w q hp hs hw hq
  have htransmit := step_wTransmit_answered hp hs hw
  have hselect : s1.select = false := (takeAnswer_select hw).trans hs
  have hverify := step_wVerify_answered (s := State.goto .wVerify (State.record (exchangeEvents s.txf w) s1)) rfl hselect
    (takeAnswer_goto_record .wVerify (exchangeEvents s.txf w) hq)
  rw [← takeAnswer_history hw, ← takeAnswer_cur hw]
  exact ⟨htransmit, (steps_succ_of_next 1 htransmit).trans (steps_succ_of_next 0 hverify)⟩

/-- Settles O32: the masked compare is the compare of bits 11:0, and the compare has three ways out. -/
theorem compareStep : Obligations.CompareStep := by
  unfold Obligations.CompareStep
  intro s hp
  rw [← payloadsMatch_iff, ← payloadsMatch_eq_false_iff, step_wCompare hp]
  refine ⟨fun hm => ?_, fun hm => ⟨fun ha => ?_, fun ha => ?_⟩⟩
  · rw [comparePhase_of_match hm]
  · rw [comparePhase_of_retry hm ha, State.goto]
  · rw [comparePhase_of_exhausted hm ha, raiseWriteExhausted, State.setErr]

/-- Settles O38: no step of a verified write is one that writes the mirror; every step but the compare and R_DECODE is
blind to `rbf`; and a matched readback decodes as the mirror's own frame does, which the controller's invariant puts in
`txf`. -/
theorem writeLeavesTheMirror : Obligations.WriteLeavesTheMirror := by
  unfold Obligations.WriteLeavesTheMirror
  refine ⟨fun _ _ _ => exec_writeOf_mirror, fun _ _ => step_mirror_of_isVerifiedWrite,
    fun _ _ _ => step_wVerify_answered, fun s q hp hq => ?_, fun s q hcompare hdecode => ?_,
    fun s hinv hp hm f hf => ?_⟩
  · rw [step_wCompare hp, step_wCompare (s := { s with rbf := q }) hp]
    exact congrArg (fun t => Host.Outcome.next { t with rbf := 0 }) (comparePhase_setRbf hq)
  · exact step_blind_to_rbf hcompare hdecode q
  · have htxf : s.txf = s.mirror.encode (Reg.ofAddr s.cur) := hinv.frame_encoded (by rw [hp]; rfl)
    rw [s.mirror.storeReply_of_payloadsMatch _ hm, htxf, ← hf, Mirror.get_storeReply_encode, Field.and_mask_toNat]
end

section
/-! SUPPORT. CLEAR_ERROR (spec/44_bulk_and_system.md R150): the one word that spells it, and its step, which clears `err`
and records `Done(OK)`. -/

namespace Sys2Proof.Machine

/-- A command word with zeros in its unused places is its four fields in theirs (R60). -/
theorem eq_commandWord_of_unused_zero {w : CommandWord} (h : w &&& 0x08E00000 = 0) :
    w = commandWord (w.extractLsb' 28 4) (w.extractLsb' 24 3) (w.extractLsb' 16 5) (w.extractLsb' 0 16) := by
  apply BitVec.eq_of_getLsbD_eq
  intro i hi
  have hunused : (w &&& 0x08E00000).getLsbD i = false := by rw [h, BitVec.ofNat_eq_ofNat, BitVec.getLsbD_zero]
  clear h
  interval_cases i <;> simp_all [commandWord]

theorem ofBareOp_eq_clearError {op : Nat} (h : Instr.ofBareOp op = some .clearError) : op = 0xB := by
  unfold Instr.ofBareOp at h
  split at h <;> cases h
  rfl

theorem readOf_ne_clearError (r : Reg) : Instr.readOf r ≠ .clearError := by cases r <;> decide

theorem writeOf_ne_clearError (r : Reg) : Instr.writeOf r ≠ .clearError := by cases r <;> decide

/-- CLEAR_ERROR has one spelling (R62, R150). -/
theorem decodeCommand_eq_clearError {w : CommandWord} (h : decodeCommand w = some .clearError) : w = 0xB0000000 := by
  unfold decodeCommand at h
  simp only at h
  split at h
  case isFalse => cases h
  case isTrue hunused =>
    split at h
    · split at h <;> cases h
    · split at h
      · exact absurd (Option.some.inj h) (readOf_ne_clearError _)
      · cases h
    · split at h
      · exact absurd (Option.some.inj h) (writeOf_ne_clearError _)
      · cases h
    · split at h
      case isFalse => cases h
      case isTrue hfields =>
        obtain ⟨hreg, hfid, hval⟩ := hfields
        have hop : w.extractLsb' 28 4 = 0xB#4 := BitVec.eq_of_toNat_eq (ofBareOp_eq_clearError h)
        rw [eq_commandWord_of_unused_zero hunused, hop, hreg, hfid, hval]
        decide

end Sys2Proof.Machine

open Sys2Proof Sys2Proof.Machine

/-- Settles O28: the step of CLEAR_ERROR records `Done(OK)` in IDLE, and a step that clears `err` runs, by
ErrorFlagLife, a word that decodes to CLEAR_ERROR, of which there is one. -/
theorem clearErrorClearsTheFlag : Obligations.ClearErrorClearsTheFlag := by
  unfold Obligations.ClearErrorClearsTheFlag
  refine ⟨by decide, fun s hidle => ⟨_, exec_clearError hidle, ?_⟩, fun s hbusy => ?_, fun s t h hs ht => ?_⟩
  · rw [done_of_idle]
    · rfl
    · exact hidle
  · exact accept_busy (fun s => done .ok (returnFromError s)) hbusy
  · obtain ⟨-, -, hclears, -⟩ := errorFlagLife
    obtain ⟨hidle, hvalid, hdecode⟩ := hclears s t h hs ht
    exact ⟨hidle, hvalid, decodeCommand_eq_clearError hdecode⟩
end

section
/-! SUPPORT. READ_ALL (spec/44_bulk_and_system.md R141): what the pass of one register does to the state, the three steps
that make it, and the walk over the registers in address order. -/

namespace Sys2Proof.Machine

/-! ### Replies -/

/-- An answer is a function of the Transport's own fields (R45). -/
theorem takeAnswer_of_environment {s t s1 : State} {q : Frame} (htr : t.transport = s.transport)
    (hfd : t.freeDraws = s.freeDraws) (h : s.takeAnswer = some (q, s1)) :
    t.takeAnswer = some (q, { t with transport := s1.transport, freeDraws := s1.freeDraws }) := by
  obtain ⟨⟩ := t
  cases htr
  cases hfd
  simp only [State.takeAnswer] at h ⊢
  split at h <;> cases h <;> simp only [*]

/-- The first of several replies, and the rest. -/
theorem takeReplies_succ {k : Nat} {s s2 : State} {qs : List Frame} (h : s.takeReplies (k + 1) = some (qs, s2)) :
    ∃ q s1 rest, s.takeAnswer = some (q, s1) ∧ s1.takeReplies k = some (rest, s2) ∧ qs = q :: rest := by
  rw [State.takeReplies] at h
  cases hans : s.takeAnswer with
  | none => simp [hans] at h
  | some p =>
    obtain ⟨q, s1⟩ := p
    simp only [hans, Option.map_eq_some_iff, Prod.exists, Prod.mk.injEq] at h
    obtain ⟨rest, _, hrest, rfl, rfl⟩ := h
    exact ⟨q, s1, rest, rfl, hrest, rfl⟩

theorem takeReplies_length {k : Nat} {s s1 : State} {qs : List Frame} (h : s.takeReplies k = some (qs, s1)) :
    qs.length = k := by
  induction k generalizing s qs with
  | zero =>
    cases h
    rfl
  | succ k ih =>
    obtain ⟨q, _, rest, -, hrest, rfl⟩ := takeReplies_succ h
    rw [List.length_cons, ih hrest]

/-- Taken replies touch the environment fields only. -/
theorem takeReplies_frame {k : Nat} {s s1 : State} {qs : List Frame} (h : s.takeReplies k = some (qs, s1)) :
    s1 = { s with transport := s1.transport, freeDraws := s1.freeDraws } := by
  induction k generalizing s qs with
  | zero =>
    cases h
    rfl
  | succ k ih =>
    obtain ⟨_, _, _, hans, hrest, -⟩ := takeReplies_succ h
    rw [ih hrest, takeAnswer_frame hans]

/-- Replies are a function of the Transport's own fields (R45). -/
theorem takeReplies_of_environment {k : Nat} {s t s1 : State} {qs : List Frame} (htr : t.transport = s.transport)
    (hfd : t.freeDraws = s.freeDraws) (h : s.takeReplies k = some (qs, s1)) :
    t.takeReplies k = some (qs, { t with transport := s1.transport, freeDraws := s1.freeDraws }) := by
  induction k generalizing s t qs with
  | zero =>
    cases h
    rw [← htr, ← hfd]
    rfl
  | succ k ih =>
    obtain ⟨q, s', rest, hans, hrest, rfl⟩ := takeReplies_succ h
    have hrest' := ih (s := s') (t := { t with transport := s'.transport, freeDraws := s'.freeDraws }) rfl rfl hrest
    rw [State.takeReplies, takeAnswer_of_environment htr hfd hans]
    simp only [hrest', Option.map_some]

/-! ### The pass of one register -/

/-- What READ_ALL does to the state for one register and its reply, from one B_NEXT to the next (R105, R140, R141). -/
def State.readRegister (s : State) (p : Reg × Frame) : State :=
  { s with
    mirror := s.mirror.storeReply p.1 p.2, cur := p.1.addr, rbf := p.2, seq := s.seq + 1,
    history := s.history ++ exchangeEvents (rdreq p.1.addr) p.2 }

/-- The passes of several registers, field by field. -/
theorem foldl_readRegister (ps : List (Reg × Frame)) (s : State) :
    ps.foldl State.readRegister s = { s with
      mirror := ps.foldl (fun m p => m.storeReply p.1 p.2) s.mirror,
      cur := (ps.map fun p => p.1.addr).getLast?.getD s.cur,
      rbf := (ps.map Prod.snd).getLast?.getD s.rbf,
      seq := s.seq + BitVec.ofNat 4 ps.length,
      history := s.history ++ ps.flatMap fun p => exchangeEvents (rdreq p.1.addr) p.2 } := by
  induction ps generalizing s with
  | nil => simp
  | cons p ps ih =>
    rw [List.foldl_cons, ih]
    simp [State.readRegister, List.getLast?_cons, BitVec.add_assoc, BitVec.ofNat_add, BitVec.add_comm]

/-- B_NEXT of READ_ALL before the eighth register: the read of the next one (R140). -/
theorem bulkNextPhase_of_readAll {s : State} (hseq : s.seq.toNat < 8) (hop : s.op = .readAll) :
    bulkNextPhase s = { s with cur := s.seq.setWidth 3, seq := s.seq + 1, phase := .rExchange } := by
  have hne : s.seq ≠ 8 := fun h => by simp [h] at hseq
  rw [bulkNextPhase, if_neg hne, if_pos hop]
  rfl

/-- B_NEXT after the eighth register: the completion (R140). -/
theorem bulkNextPhase_of_eight {s : State} (hseq : s.seq = 8) : bulkNextPhase s = done s.bulkResult s :=
  if_pos hseq

/-- B_NEXT, R_EXCHANGE and R_DECODE of READ_ALL: the pass of the next register (R141). -/
theorem steps_readRegister {s s1 : State} {q : Frame} (hp : s.phase = .bNext) (hop : s.op = .readAll)
    (hs : s.select = false) (hseq : s.seq.toNat < 8) (hans : s.takeAnswer = some (q, s1)) :
    steps 3 s = .next (s1.readRegister (Reg.ofAddr (s.seq.setWidth 3), q)) := by
  have hnext := step_bNext hp
  rw [bulkNextPhase_of_readAll hseq hop] at hnext
  have hexchange := step_rExchange_answered
    (s := { s with cur := s.seq.setWidth 3, seq := s.seq + 1, phase := .rExchange })
    (takeAnswer_of_environment (s := s) rfl rfl hans) rfl hs
  have hdecode := step_rDecode_of_bulk (s := { s with
      transport := s1.transport, freeDraws := s1.freeDraws, cur := s.seq.setWidth 3, seq := s.seq + 1,
      phase := .rDecode, rbf := q, history := s.history ++ exchangeEvents (rdreq (s.seq.setWidth 3)) q })
    rfl (Reg.addr_ofAddr (s.seq.setWidth 3)).symm (by rw [hop]; rfl)
  rw [steps_succ_of_next 2 hnext, steps_succ_of_next 1 hexchange, steps_succ_of_next 0 hdecode, takeAnswer_frame hans]
  simp [State.readRegister, hp]

/-! ### The walk over the registers -/

/-- `seq` counts through the registers in address order (R17, R140). -/
theorem Reg.all_drop_seq {seq : BitVec 4} (h : seq.toNat < 8) :
    Reg.all.drop seq.toNat = Reg.ofAddr (seq.setWidth 3) :: Reg.all.drop (seq + 1).toNat := by
  revert seq
  decide

/-- READ_ALL from any B_NEXT on: the passes of the registers that are left, in address order. -/
theorem steps_readRegisters {rs : List Reg} {s s1 : State} {qs : List Frame} (hrs : Reg.all.drop s.seq.toNat = rs)
    (hp : s.phase = .bNext) (hop : s.op = .readAll) (hs : s.select = false)
    (hq : s.takeReplies rs.length = some (qs, s1)) :
    steps (3 * rs.length) s = .next ((rs.zip qs).foldl State.readRegister s1) := by
  induction rs generalizing s qs s1 with
  | nil =>
    cases hq
    rfl
  | cons r rs ih =>
    have hseq : s.seq.toNat < 8 := by
      by_contra hge
      rw [List.drop_eq_nil_of_le (Nat.le_of_not_lt hge)] at hrs
      cases hrs
    rw [Reg.all_drop_seq hseq] at hrs
    obtain ⟨rfl, hleft⟩ := List.cons.inj hrs
    obtain ⟨q, s', rest, hans, hrest, rfl⟩ := takeReplies_succ hq
    have hpass := steps_readRegister hp hop hs hseq hans
    rw [List.length_cons, Nat.mul_succ, Nat.add_comm, steps_add_of_next 3 _ hpass, List.zip_cons_cons, List.foldl_cons]
    have hframe := takeAnswer_frame hans
    have hrest' := takeReplies_of_environment
      (s := s') (t := s'.readRegister (Reg.ofAddr (s.seq.setWidth 3), q)) rfl rfl hrest
    rw [ih (by rw [hframe]; exact hleft) (by rw [hframe]; exact hp) (by rw [hframe]; exact hop)
      (by rw [hframe]; exact hs) hrest', takeReplies_frame hrest]
    rfl

/-! ### The command -/

/-- The acceptance of READ_ALL (R141). -/
theorem exec_readAll {s : State} (hp : s.phase = .idle) :
    exec .readAll s = .next (startBulk .readAll { s with cmdValid := false }) :=
  accept_idle (startBulk .readAll) hp

/-- The read requests of the registers are the frames 0x8000 to 0xF000 (R141). -/
theorem map_rdreq_all :
    Reg.all.map (fun r => rdreq r.addr) = [0x8000, 0x9000, 0xA000, 0xB000, 0xC000, 0xD000, 0xE000, 0xF000] := by
  decide

/-- The passes of all eight registers (R141). -/
theorem foldl_readRegister_all {qs : List Frame} (hq : qs.length = 8) (s : State) :
    (Reg.all.zip qs).foldl State.readRegister s = { s with
      mirror := (Reg.all.zip qs).foldl (fun m p => m.storeReply p.1 p.2) s.mirror,
      cur := 7, rbf := qs.getLast?.getD 0, seq := s.seq + 8,
      history := s.history ++ (List.zip [0x8000, 0x9000, 0xA000, 0xB000, 0xC000, 0xD000, 0xE000, 0xF000] qs).flatMap
        fun p => exchangeEvents p.1 p.2 } := by
  have hlen : qs.length = Reg.all.length := hq
  have hcur : (Reg.all.zip qs).map (fun p => p.1.addr) = Reg.all.map Reg.addr :=
    calc (Reg.all.zip qs).map (fun p => p.1.addr)
        = ((Reg.all.zip qs).map Prod.fst).map Reg.addr := by
          rw [List.map_map]
          rfl
      _ = Reg.all.map Reg.addr := by rw [List.map_fst_zip hlen.ge]
  have hrbf : (Reg.all.zip qs).map Prod.snd = qs := List.map_snd_zip hlen.le
  have hlast : qs.getLast?.getD s.rbf = qs.getLast?.getD 0 := by
    have hne : qs ≠ [] := fun h => by simp [h] at hq
    rw [List.getLast?_eq_some_getLast hne]
    rfl
  rw [foldl_readRegister, hcur, hrbf, hlast, List.length_zip, hlen, ← map_rdreq_all, List.zip_map_left, List.flatMap_map]
  rfl

/-- B_NEXT after the eighth register, with no failure: `Done(OK)` (R140). -/
theorem step_bNext_completes {s : State} (hp : s.phase = .bNext) (hseq : s.seq = 8) (hacc : s.acc = true) :
    step s = .next (done .ok s) := by
  rw [step_bNext hp, bulkNextPhase_of_eight hseq, State.bulkResult, hacc, if_pos rfl]

/-- R_EXCHANGE is left for R_DECODE, or not at all (R105, R46). -/
theorem step_rExchange_phase {s t : State} (hp : s.phase = .rExchange) (h : step s = .next t) :
    t.phase = .rDecode ∨ t.phase = .rExchange := by
  rw [step_request (.inr hp)] at h
  cases h
  rcases sendRead_cases (Reg.ofAddr s.cur) s with ⟨_, _, _, ⟨hv, -⟩ | ⟨-, hd⟩ | ⟨-, hne, -⟩⟩ | ⟨-, hhang⟩
  · rw [hp] at hv
    cases hv
  · exact .inl (by rw [hd])
  · exact absurd hp hne
  · exact .inr (by rw [hhang, State.assertSelect_phase, hp])

end Sys2Proof.Machine

open Sys2Proof Sys2Proof.Machine

/-- Settles O25: from its acceptance READ_ALL walks the registers that are left, one pass each, by induction on their list;
the passes write the mirror, the history and the sequencing registers field by field, and the last B_NEXT completes. -/
theorem readAllReadsEveryRegister : Obligations.ReadAllReadsEveryRegister := by
  unfold Obligations.ReadAllReadsEveryRegister
  refine ⟨by decide, fun s hbusy => accept_busy _ hbusy, fun s s1 qs hidle hsel hreplies => ?_,
    fun s _ hp t h => step_rExchange_phase hp h, fun s hop hp => ?_⟩
  · have hrun := steps_readRegisters (rs := Reg.all) (s := startBulk .readAll { s with cmdValid := false })
      rfl rfl rfl hsel (takeReplies_of_environment (s := s) rfl rfl hreplies)
    rw [foldl_readRegister_all (takeReplies_length hreplies)] at hrun
    refine ⟨_, _, _, exec_readAll hidle, rfl, hrun, ?_, step_bNext_completes rfl rfl rfl, ?_⟩
    · rw [takeReplies_frame hreplies]
      rfl
    · rw [takeReplies_frame hreplies]
      obtain ⟨⟩ := s
      cases hidle
      rfl
  · exact step_rDecode_of_bulk hp (Reg.addr_ofAddr s.cur).symm (by rw [hop]; rfl)
end

section
/-! SUPPORT. The error event and the return from it (spec/60_exceptions.md R158, R162, R163): what the entry does to a
single and to a bulk command, and that no step of a verified write clears `err`. -/

namespace Sys2Proof.Machine

/-! ### The entry -/

/-- The entry of the error event in a single command: `err`, the completion, IDLE (R158, R162). -/
theorem raiseWriteExhausted_of_single {s : State} (hop : s.op.isBulk = false) :
    raiseWriteExhausted s = { s with err := true, phase := .idle, history := s.history ++ [.done .fail] } :=
  finish_of_single .fail (s := State.setErr true s) hop

/-- The entry of the error event inside a bulk command: `err`, the result bit, B_NEXT (R158, R162). -/
theorem raiseWriteExhausted_of_bulk {s : State} (hop : s.op.isBulk = true) :
    raiseWriteExhausted s = { s with err := true, acc := false, phase := .bNext } := by
  have hacc : (s.acc && decide (Result.fail = .ok)) = false := Bool.and_false s.acc
  rw [raiseWriteExhausted, finish_of_bulk .fail (s := State.setErr true s) hop, State.setErr_acc, hacc, State.setErr]

/-! ### The return -/

/-- Only in IDLE can a step be refused, so a busy controller has a next state (R65, R155). -/
theorem step_answers_of_busy {s : State} (hbusy : s.phase ≠ .idle) : ∃ t, step s = .next t := by
  cases hp : s.phase with
  | idle => exact absurd hp hbusy
  | wEncode => exact ⟨_, step_wEncode hp⟩
  | wTransmit => exact ⟨_, step_transmit (.inl hp)⟩
  | wVerify => exact ⟨_, step_request (.inl hp)⟩
  | wCompare => exact ⟨_, step_wCompare hp⟩
  | wBackoff => exact ⟨_, step_wBackoff hp⟩
  | sEncode => exact ⟨_, step_sEncode hp⟩
  | sTransmit => exact ⟨_, step_transmit (.inr hp)⟩
  | rExchange => exact ⟨_, step_request (.inr hp)⟩
  | rDecode => exact ⟨_, step_rDecode hp⟩
  | bNext => exact ⟨_, step_bNext hp⟩

/-- A step that clears `err` is taken in IDLE, so a busy controller keeps an `err` that is set (R16, R163). -/
theorem step_keeps_err_of_busy {s t : State} (hbusy : s.phase ≠ .idle) (herr : s.err = true) (h : step s = .next t) :
    t.err = true := by
  rcases step_err_cases h with ⟨-, hset⟩ | ⟨⟨hidle, -⟩, -⟩ | hkept
  · exact hset
  · exact absurd hidle hbusy
  · exact hkept.trans herr

theorem Phase.ne_idle_of_isVerifiedWrite {p : Phase} (h : p.isVerifiedWrite = true) : p ≠ .idle := by
  rintro rfl
  cases h

end Sys2Proof.Machine

open Sys2Proof Sys2Proof.Machine

/-- Settles O37: the tenth mismatch runs `raise WriteExhausted`, whose effects are those of `finish(FAIL)` with `err` set,
for a single and for a bulk command. -/
theorem writeExhaustedEntry : Obligations.WriteExhaustedEntry := by
  unfold Obligations.WriteExhaustedEntry
  intro s hp hsel hm hatt
  have htenth : 10 ≤ s.att.toNat := by rw [hatt]; decide
  have hentry : step s = .next (raiseWriteExhausted s) := step_of_exhausts ⟨hp, hm, htenth⟩
  refine ⟨fun hop => ⟨_, hentry, ?_⟩, fun hop => ?_⟩
  · rw [raiseWriteExhausted_of_single hop, State.sameButSequencing, hsel]
  · rw [hentry, raiseWriteExhausted_of_bulk hop, hsel]

/-- Settles O39: CLEAR_ERROR writes `err`, the port and the history only; every other instruction commutes with setting
`err`, and every step is blind to it; and `err` is cleared in IDLE only, where no verified write is in progress. -/
theorem errorReturn : Obligations.ErrorReturn := by
  unfold Obligations.ErrorReturn
  refine ⟨fun s hidle => ?_, fun i s b hi => exec_setErr hi b s, step_blind_to_err, fun s herr hp => ?_⟩
  · exact ⟨_, exec_clearError hidle, rfl, rfl, rfl, rfl, rfl, rfl, rfl, rfl, rfl, rfl, rfl⟩
  · have hbusy : s.phase ≠ .idle := Phase.ne_idle_of_isVerifiedWrite hp
    obtain ⟨t, h⟩ := step_answers_of_busy hbusy
    exact ⟨t, h, step_keeps_err_of_busy hbusy herr h⟩
end

section
/-! SUPPORT. The controller's invariant (spec/10_state.md R17 to R19, spec/43_verified_write.md R121, R127, R139): what has
to be shown of a state in each group of phases, and how each operation of the controller hands the invariant on. -/

namespace Sys2Proof.Machine

/-! ### What the invariant asks in each group of phases -/

theorem ControllerInv.of_idle {s : State} (hp : s.phase = .idle) (hseq : s.seq.toNat ≤ 8) (hsel : s.select = false) :
    ControllerInv s := by
  constructor <;> simp [hp, hseq, hsel, Phase.isAttempt, Phase.isVerifiedWrite, Phase.isStatusWrite, Phase.isRead]

theorem ControllerInv.of_bNext {s : State} (hp : s.phase = .bNext) (hop : s.op.isBulk = true) (hseq : s.seq.toNat ≤ 8)
    (hsel : s.select = false) : ControllerInv s := by
  constructor <;> simp [hp, hop, hseq, hsel, Phase.isAttempt, Phase.isVerifiedWrite, Phase.isStatusWrite, Phase.isRead]

/-- In the phases of a read (R105). -/
theorem ControllerInv.of_read {s : State} (hp : s.phase.isRead = true)
    (hop : s.op = .read ∨ s.op = .getStatus ∨ s.op = .readAll) (hseq : s.seq.toNat ≤ 8)
    (hcur : s.op.isBulk = true → s.seq.toNat = s.cur.toNat + 1) (hsel : s.select = true → s.phase.isExchange = true) :
    ControllerInv s := by
  constructor
  case seq_range => exact hseq
  case seq_cur => exact fun hb _ _ => hcur hb
  case op_read => exact fun _ => hop
  case select_exchange => exact hsel
  all_goals
    intro hphase
    cases h : s.phase <;> simp [h, Phase.isRead, Phase.isAttempt, Phase.isVerifiedWrite, Phase.isStatusWrite] at hp hphase

/-- In the phases of the plain STATUS write (R135). -/
theorem ControllerInv.of_statusWrite {s : State} (hp : s.phase.isStatusWrite = true) (hcur : s.cur = 7)
    (htxf : s.phase = .sTransmit → s.txf = s.mirror.encode .status)
    (hop : s.op = .write ∨ s.op = .clearStatus ∨ s.op = .writeAll ∨ s.op = .init) (hseq : s.seq.toNat ≤ 8)
    (hbulk : s.op.isBulk = true → s.seq.toNat = s.cur.toNat + 1) (hsel : s.select = true → s.phase.isExchange = true) :
    ControllerInv s := by
  constructor
  case status_encoded => exact htxf
  case status_cur => exact fun _ => hcur
  case seq_range => exact hseq
  case seq_cur => exact fun hb _ _ => hbulk hb
  case op_status => exact fun _ => hop
  case select_exchange => exact hsel
  all_goals
    intro hphase
    cases h : s.phase <;> simp [h, Phase.isRead, Phase.isAttempt, Phase.isVerifiedWrite, Phase.isStatusWrite] at hp hphase

/-- In the phases of a verified write (R120 to R128). -/
theorem ControllerInv.of_verifiedWrite {s : State} (hp : s.phase.isVerifiedWrite = true)
    (hatt : s.phase.isAttempt = true →
      1 ≤ s.att.toNat ∧ s.att.toNat ≤ 10 ∧ s.txf = s.mirror.encode (Reg.ofAddr s.cur))
    (hlast : s.phase = .wBackoff → s.att.toNat ≤ 9) (hcur : s.cur ≠ 7)
    (hop : s.op = .write ∨ s.op = .enable ∨ s.op = .disable ∨ s.op = .writeAll ∨ s.op = .init) (hseq : s.seq.toNat ≤ 8)
    (hbulk : s.op.isBulk = true → s.seq.toNat = s.cur.toNat + 1) (hsel : s.select = true → s.phase.isExchange = true) :
    ControllerInv s := by
  constructor
  case att_range => exact fun h => ⟨(hatt h).1, (hatt h).2.1⟩
  case att_backoff => exact hlast
  case frame_encoded => exact fun h => (hatt h).2.2
  case verified_cur => exact fun _ => hcur
  case seq_range => exact hseq
  case seq_cur => exact fun hb _ _ => hbulk hb
  case op_write => exact fun _ => hop
  case select_exchange => exact hsel
  all_goals
    intro hphase
    cases h : s.phase <;> simp [h, Phase.isRead, Phase.isVerifiedWrite, Phase.isStatusWrite] at hp hphase

/-! ### What the invariant gives -/

/-- Outside an exchange the select is de-asserted (R33). -/
theorem ControllerInv.select_eq_false {s : State} (h : ControllerInv s) (hp : s.phase.isExchange = false) :
    s.select = false := by
  rw [← Bool.not_eq_true]
  intro hsel
  rw [h.select_exchange hsel] at hp
  cases hp

/-- Inside a register of a bulk command `seq` is one past `cur` (R140). -/
theorem ControllerInv.seq_eq {s : State} (h : ControllerInv s) {p : Phase} (hp : s.phase = p) (hidle : p ≠ .idle)
    (hnext : p ≠ .bNext) : s.op.isBulk = true → s.seq.toNat = s.cur.toNat + 1 :=
  fun hop => h.seq_cur hop (hp ▸ hidle) (hp ▸ hnext)

/-! ### The operations -/

/-- The end of a sub-operation keeps the invariant, whatever phase it ends (R140). -/
theorem ControllerInv.finish {s : State} (res : Result) (hseq : s.seq.toNat ≤ 8) (hsel : s.select = false) :
    ControllerInv (finish res s) := by
  rcases finish_cases res s with ⟨hop, h⟩ | ⟨-, h⟩ <;> rw [h]
  · exact .of_bNext rfl hop hseq hsel
  · exact .of_idle rfl hseq hsel

/-- An exchange that hangs keeps the invariant: its phase may have the select asserted (R33, R46). -/
theorem ControllerInv.assertSelect {s : State} (h : ControllerInv s) (hp : s.phase.isExchange = true) :
    ControllerInv s.assertSelect := by
  rw [assertSelect_eq]
  obtain ⟨h1, h2, h3, h4, h5, h6, h7, h8, h9, h10, h11, h12, -⟩ := h
  exact ⟨h1, h2, h3, h4, h5, h6, h7, h8, h9, h10, h11, h12, fun _ => hp⟩

theorem ControllerInv.hostTurn {s : State} (h : ControllerInv s) (hp : s.phase = .idle) :
    ControllerInv (hostTurn s) := by
  have hsel : s.select = false := h.select_eq_false (by rw [hp]; rfl)
  unfold Machine.hostTurn
  split
  · exact h
  · exact .of_idle hp h.seq_range hsel

theorem readOf_op {i : Instr} {op : Op} {r : Reg} (h : readOf i = some (op, r)) : op = .read ∨ op = .getStatus := by
  unfold readOf at h
  split at h <;> cases h <;> simp

theorem verifiedWriteOf_op {m m' : Mirror} {i : Instr} {op : Op} {r : Reg}
    (h : verifiedWriteOf m i = some (op, r, m')) : (op = .write ∨ op = .enable ∨ op = .disable) ∧ r ≠ .status := by
  unfold verifiedWriteOf at h
  split at h <;> cases h <;> simp

theorem statusWriteOf_op {m m' : Mirror} {i : Instr} {op : Op} (h : statusWriteOf m i = some (op, m')) :
    op = .write ∨ op = .clearStatus := by
  unfold statusWriteOf at h
  split at h <;> cases h <;> simp

theorem bulkWriteOf_op {m m' : Mirror} {i : Instr} {op : Op} (h : bulkWriteOf m i = some (op, m')) :
    op = .writeAll ∨ op = .init := by
  unfold bulkWriteOf at h
  split at h <;> cases h <;> simp

theorem Reg.addr_ne_seven {r : Reg} (h : r ≠ .status) : r.addr ≠ 7 := by
  cases r with
  | status => exact absurd rfl h
  | _ => decide

/-- Every accepted command starts in a state that meets the invariant (R20, R139, R140). -/
theorem ControllerInv.exec_command {i : Instr} {s t : State} (h : ControllerInv s) (hc : i.isCommand = true)
    (hp : s.phase = .idle) (he : exec i s = .next t) : ControllerInv t := by
  have hsel : s.select = false := h.select_eq_false (by rw [hp]; rfl)
  have hnone : ∀ {p : Phase}, s.select = true → p.isExchange = true := fun hs => by rw [hsel] at hs; cases hs
  rcases exec_command_cases hc hp he with ⟨_, _, -, rfl⟩ | ⟨-, rfl⟩ | ⟨op, r, hr, rfl⟩ | ⟨op, r, m, hw, rfl⟩ |
    ⟨op, m, hw, rfl⟩ | ⟨-, rfl⟩ | ⟨op, m, hw, rfl⟩
  · exact .of_idle rfl h.seq_range hsel
  · exact .of_idle rfl h.seq_range hsel
  · rcases readOf_op hr with rfl | rfl
    · exact .of_read rfl (by simp) h.seq_range nofun hnone
    · exact .of_read rfl (by simp) h.seq_range nofun hnone
  · obtain ⟨hop, hr⟩ := verifiedWriteOf_op hw
    refine .of_verifiedWrite rfl nofun nofun (Reg.addr_ne_seven hr) (by tauto) h.seq_range ?_ hnone
    rcases hop with rfl | rfl | rfl <;> nofun
  · have hop := statusWriteOf_op hw
    refine .of_statusWrite rfl rfl nofun (by tauto) h.seq_range ?_ hnone
    rcases hop with rfl | rfl <;> nofun
  · exact .of_bNext rfl rfl (Nat.zero_le 8) hsel
  · refine .of_bNext rfl ?_ (Nat.zero_le 8) hsel
    rcases bulkWriteOf_op hw with rfl | rfl <;> rfl

/-- W_ENCODE starts the attempts with number 1 and the frame of the mirror's register (R121). -/
theorem ControllerInv.encodePhase {s : State} (h : ControllerInv s) (hp : s.phase = .wEncode) :
    ControllerInv (encodePhase s) :=
  .of_verifiedWrite rfl (fun _ => ⟨Nat.le_refl 1, show 1 ≤ 10 by decide, rfl⟩) nofun (h.verified_cur (by rw [hp]; rfl))
    (h.op_write (by rw [hp]; rfl)) h.seq_range (h.seq_eq hp (by decide) (by decide)) fun _ => rfl

/-- W_TRANSMIT goes on to W_VERIFY with the same attempt, or hangs (R122). -/
theorem ControllerInv.transmit {s : State} (h : ControllerInv s) (hp : s.phase = .wTransmit) :
    ControllerInv (sendWrite s.txf s) := by
  have hattempt : s.phase.isAttempt = true := by rw [hp]; rfl
  obtain ⟨hlow, hhigh⟩ := h.att_range hattempt
  rcases sendWrite_cases s.txf s with ⟨_, _, _, ⟨-, he⟩ | ⟨hs, -⟩ | ⟨hne, -⟩⟩ | ⟨-, he⟩
  · rw [he]
    exact .of_verifiedWrite rfl (fun _ => ⟨hlow, hhigh, h.frame_encoded hattempt⟩) nofun
      (h.verified_cur (by rw [hp]; rfl)) (h.op_write (by rw [hp]; rfl)) h.seq_range
      (h.seq_eq hp (by decide) (by decide)) nofun
  · rw [hp] at hs
    cases hs
  · exact absurd hp hne
  · rw [he]
    exact h.assertSelect (by rw [hp]; rfl)

/-- W_VERIFY goes on to W_COMPARE with the same attempt, or hangs (R123). -/
theorem ControllerInv.verify {s : State} (h : ControllerInv s) (hp : s.phase = .wVerify) (r : Reg) :
    ControllerInv (sendRead r s) := by
  have hattempt : s.phase.isAttempt = true := by rw [hp]; rfl
  obtain ⟨hlow, hhigh⟩ := h.att_range hattempt
  rcases sendRead_cases r s with ⟨_, _, _, ⟨-, he⟩ | ⟨hs, -⟩ | ⟨hne, -⟩⟩ | ⟨-, he⟩
  · rw [he]
    exact .of_verifiedWrite rfl (fun _ => ⟨hlow, hhigh, h.frame_encoded hattempt⟩) nofun
      (h.verified_cur (by rw [hp]; rfl)) (h.op_write (by rw [hp]; rfl)) h.seq_range
      (h.seq_eq hp (by decide) (by decide)) nofun
  · rw [hp] at hs
    cases hs
  · exact absurd hp hne
  · rw [he]
    exact h.assertSelect (by rw [hp]; rfl)

/-- W_COMPARE ends the sub-operation, or goes to a backoff with an attempt that is not the tenth (R124). -/
theorem ControllerInv.comparePhase {s : State} (h : ControllerInv s) (hp : s.phase = .wCompare) :
    ControllerInv (comparePhase s) := by
  have hsel : s.select = false := h.select_eq_false (by rw [hp]; rfl)
  have hattempt : s.phase.isAttempt = true := by rw [hp]; rfl
  obtain ⟨hlow, hhigh⟩ := h.att_range hattempt
  cases hm : payloadsMatch s.txf s.rbf with
  | true =>
    rw [comparePhase_of_match hm]
    exact .finish .ok h.seq_range hsel
  | false =>
    rcases Nat.lt_or_ge s.att.toNat 10 with ha | ha
    · rw [comparePhase_of_retry hm ha]
      exact .of_verifiedWrite rfl (fun _ => ⟨hlow, hhigh, h.frame_encoded hattempt⟩) (fun _ => Nat.le_of_lt_succ ha)
        (h.verified_cur (by rw [hp]; rfl)) (h.op_write (by rw [hp]; rfl)) h.seq_range
        (h.seq_eq hp (by decide) (by decide)) fun hs => by rw [State.goto_select, hsel] at hs; cases hs
    · rw [comparePhase_of_exhausted hm ha]
      exact .finish .fail h.seq_range hsel

/-- The number after one of the first nine attempts is among the ten (R127). -/
theorem att_succ_toNat {a : BitVec 4} (h : a.toNat ≤ 9) : (a + 1).toNat = a.toNat + 1 := by
  revert a
  decide

/-- W_BACKOFF goes on to the next attempt, which is at most the tenth, or stays (R127). -/
theorem ControllerInv.backoffPhase {s : State} (h : ControllerInv s) (hp : s.phase = .wBackoff) :
    ControllerInv (backoffPhase s) := by
  have hattempt : s.phase.isAttempt = true := by rw [hp]; rfl
  have hlast : s.att.toNat ≤ 9 := h.att_backoff hp
  have hnext := att_succ_toNat hlast
  rcases backoffPhase_cases s with ⟨_, he⟩ | ⟨-, he⟩ <;> rw [he]
  · exact .of_verifiedWrite rfl
      (fun _ => ⟨by rw [hnext]; omega, by rw [hnext]; omega, h.frame_encoded hattempt⟩) nofun
      (h.verified_cur (by rw [hp]; rfl)) (h.op_write (by rw [hp]; rfl)) h.seq_range
      (h.seq_eq hp (by decide) (by decide)) fun _ => rfl
  · exact h

theorem ControllerInv.statusEncodePhase {s : State} (h : ControllerInv s) (hp : s.phase = .sEncode) :
    ControllerInv (statusEncodePhase s) :=
  .of_statusWrite rfl (h.status_cur (by rw [hp]; rfl)) (fun _ => rfl) (h.op_status (by rw [hp]; rfl)) h.seq_range
    (h.seq_eq hp (by decide) (by decide)) fun _ => rfl

/-- S_TRANSMIT ends the sub-operation, or hangs (R135). -/
theorem ControllerInv.statusTransmit {s : State} (h : ControllerInv s) (hp : s.phase = .sTransmit) (f : Frame) :
    ControllerInv (sendWrite f s) := by
  rcases sendWrite_cases f s with ⟨_, _, _, ⟨hs, -⟩ | ⟨-, he⟩ | ⟨-, hne, -⟩⟩ | ⟨-, he⟩
  · rw [hp] at hs
    cases hs
  · rw [he]
    exact .finish .ok h.seq_range rfl
  · exact absurd hp hne
  · rw [he]
    exact h.assertSelect (by rw [hp]; rfl)

/-- R_EXCHANGE goes on to R_DECODE, or hangs (R105). -/
theorem ControllerInv.readExchange {s : State} (h : ControllerInv s) (hp : s.phase = .rExchange) (r : Reg) :
    ControllerInv (sendRead r s) := by
  rcases sendRead_cases r s with ⟨_, _, _, ⟨hs, -⟩ | ⟨-, he⟩ | ⟨-, hne, -⟩⟩ | ⟨-, he⟩
  · rw [hp] at hs
    cases hs
  · rw [he]
    exact .of_read rfl (h.op_read (by rw [hp]; rfl)) h.seq_range (h.seq_eq hp (by decide) (by decide)) nofun
  · exact absurd hp hne
  · rw [he]
    exact h.assertSelect (by rw [hp]; rfl)

theorem Op.isBulk_iff (op : Op) : op.isBulk = true ↔ op = .readAll ∨ op = .writeAll ∨ op = .init := by
  cases op <;> decide

/-- The eighth register is STATUS, at address 7 (R10, R140). -/
theorem setWidth_seq_eq_seven {seq : BitVec 4} (h : seq.toNat < 8) : seq.setWidth 3 = (7 : Addr) ↔ seq = 7 := by
  revert seq
  decide

/-- B_NEXT before the eighth register: the next one, whose phase is the command's (R140). -/
theorem bulkNextPhase_of_lt {s : State} (hseq : s.seq.toNat < 8) :
    bulkNextPhase s = { s with
      cur := s.seq.setWidth 3, seq := s.seq + 1,
      phase := if s.op = .readAll then .rExchange else if s.seq = 7 then .sEncode else .wEncode } := by
  have hne : s.seq ≠ 8 := fun h => by simp [h] at hseq
  simp only [bulkNextPhase, if_neg hne, State.goto, setWidth_seq_eq_seven hseq]
  split_ifs <;> rfl

/-- `seq` counts one past the register that B_NEXT starts (R140). -/
theorem seq_succ_toNat {seq : BitVec 4} (h : seq.toNat < 8) : (seq + 1).toNat = (seq.setWidth 3).toNat + 1 := by
  revert seq
  decide

/-- B_NEXT completes, or starts the next register: a read, the STATUS write for the eighth, else a verified write (R140). -/
theorem ControllerInv.bulkNextPhase {s : State} (h : ControllerInv s) (hp : s.phase = .bNext) :
    ControllerInv (bulkNextPhase s) := by
  have hsel : s.select = false := h.select_eq_false (by rw [hp]; rfl)
  have hnone : ∀ {p : Phase}, s.select = true → p.isExchange = true := fun hs => by rw [hsel] at hs; cases hs
  rcases Nat.lt_or_ge s.seq.toNat 8 with hseq | hseq
  · have hsucc := seq_succ_toNat hseq
    have hrange : (s.seq + 1).toNat ≤ 8 := by
      rw [hsucc]
      exact (s.seq.setWidth 3).isLt
    have hop := (Op.isBulk_iff s.op).1 (h.op_bulk hp)
    rw [bulkNextPhase_of_lt hseq]
    by_cases hread : s.op = .readAll
    · rw [if_pos hread]
      exact .of_read rfl (.inr (.inr hread)) hrange (fun _ => hsucc) hnone
    · rw [if_neg hread]
      by_cases hlast : s.seq = 7
      · rw [if_pos hlast]
        exact .of_statusWrite rfl (by rw [hlast]; rfl) nofun (by tauto) hrange (fun _ => hsucc) hnone
      · rw [if_neg hlast]
        have hcur : s.seq.setWidth 3 ≠ (7 : Addr) := fun h7 => hlast ((setWidth_seq_eq_seven hseq).1 h7)
        exact .of_verifiedWrite rfl nofun nofun hcur (by tauto) hrange (fun _ => hsucc) hnone
  · have height : s.seq = 8 := BitVec.eq_of_toNat_eq (Nat.le_antisymm h.seq_range hseq)
    rw [bulkNextPhase_of_eight height]
    exact .of_idle rfl h.seq_range hsel

end Sys2Proof.Machine

open Sys2Proof Sys2Proof.Machine

/-- Settles O47: phase by phase, each operation of the controller hands the invariant on. -/
theorem controllerInvKept : Obligations.ControllerInvKept := by
  unfold Obligations.ControllerInvKept
  intro s t h hstep
  rcases step_cases hstep with ⟨hp, -, rfl⟩ | ⟨hp, -, i, -, hc, he⟩ | ⟨hp, rfl⟩ | ⟨hp, rfl⟩ | ⟨hp, rfl⟩ | ⟨hp, rfl⟩ |
    ⟨hp, rfl⟩ | ⟨hp, rfl⟩ | ⟨hp, rfl⟩ | ⟨hp, rfl⟩ | ⟨hp, rfl⟩ | ⟨hp, rfl⟩
  · exact h.hostTurn hp
  · exact h.exec_command hc hp he
  · exact h.encodePhase hp
  · exact h.transmit hp
  · exact h.verify hp _
  · exact h.comparePhase hp
  · exact h.backoffPhase hp
  · exact h.statusEncodePhase hp
  · exact h.statusTransmit hp _
  · exact h.readExchange hp _
  · exact .finish .ok h.seq_range (h.select_eq_false (by rw [hp]; rfl))
  · exact h.bulkNextPhase hp

/-- Settles O48: after reset the controller is in IDLE, `seq` is 0 and the select is de-asserted. -/
theorem controllerInvAtReset : Obligations.ControllerInvAtReset := by
  unfold Obligations.ControllerInvAtReset
  exact .of_idle rfl (Nat.zero_le 8) rfl
end

section
/-! SUPPORT. Noninterference. The port of a busy controller (spec/10_state.md R20) and the sequencing registers that are
written before they are next read (R19, D27) reach nothing else: an operation does the same from a state and from the one with
those fields replaced. -/

namespace Sys2Proof.Machine

/-! ### Two states with the same environment -/

/-- The state with the select, the Transport and the history replaced: all that an exchange itself writes (R31, R33). -/
def State.withLink (select : Bool) (transport : List Answer) (freeDraws : Nat) (history : List Event) (s : State) : State :=
  { s with select := select, transport := transport, freeDraws := freeDraws, history := history }

/-- Exchanges of one frame from two states with the same select, history and Transport get the same reply, or both hang. -/
theorem exchange_of_environment {s s' : State} (hsel : s'.select = s.select) (htr : s'.transport = s.transport)
    (hfd : s'.freeDraws = s.freeDraws) (hh : s'.history = s.history) (out : Frame) (cont : Frame → State → State) :
    (∃ q tr fd es, exchange out cont s = cont q (s.withLink false tr fd es) ∧
      exchange out cont s' = cont q (s'.withLink false tr fd es)) ∨
    (∃ tr fd es, exchange out cont s = s.withLink true tr fd es ∧ exchange out cont s' = s'.withLink true tr fd es) := by
  have hassert : s'.assertSelect.history = s.assertSelect.history := by
    rw [assertSelect_history, assertSelect_history, hsel, hh]
  cases h : s.takeAnswer with
  | none =>
    obtain ⟨rest, hr⟩ := (takeAnswer_eq_none s).1 h
    refine .inr ⟨s.transport, s.freeDraws, s.assertSelect.history, ?_, ?_⟩
    · rw [exchange_hangs out cont hr]
      exact assertSelect_eq s
    · rw [exchange_hangs out cont (htr.trans hr), ← htr, ← hfd, ← hassert]
      exact assertSelect_eq s'
  | some p =>
    obtain ⟨q, s1⟩ := p
    refine .inl ⟨q, s1.transport, s1.freeDraws, s.assertSelect.history ++ [.xchg out q, .cs false], ?_, ?_⟩
    · rw [exchange, takeAnswer_assertSelect h, takeAnswer_frame h]
      simp [State.record, State.releaseSelect, State.withLink]
    · rw [exchange, takeAnswer_assertSelect (takeAnswer_of_environment htr hfd h), hassert]
      simp [State.record, State.releaseSelect, State.withLink]

/-- Waits from two states with the same delay service both end, and leave it the same, or both hang. -/
theorem takeDelay_of_environment {s s' : State} (h : s'.delayHangsAfter = s.delayHangsAfter) :
    (∃ d, s.takeDelay = some { s with delayHangsAfter := d } ∧ s'.takeDelay = some { s' with delayHangsAfter := d }) ∨
    (s.takeDelay = none ∧ s'.takeDelay = none) := by
  cases hd : s.takeDelay with
  | none => exact .inr ⟨rfl, (takeDelay_eq_none s').2 (h.trans ((takeDelay_eq_none s).1 hd))⟩
  | some s1 =>
    refine .inl ⟨s1.delayHangsAfter, congrArg some (takeDelay_frame hd), ?_⟩
    obtain ⟨⟩ := s'
    cases h
    unfold State.takeDelay at hd ⊢
    split at hd <;> cases hd <;> simp only [*]

/-! ### The port of a busy controller -/

/-- An operation to which the port is nothing: replacing it before is the same as replacing it after. -/
def CommutesWithPort (f : State → State) : Prop :=
  ∀ (valid : Bool) (w : CommandWord) (queue : List CommandWord) (s : State),
    f (s.withPort valid w queue) = (f s).withPort valid w queue

theorem finish_commutesWithPort (res : Result) : CommutesWithPort (finish res) := by
  intro valid w queue s
  have hop : (s.withPort valid w queue).op = s.op := rfl
  rcases finish_cases res s with ⟨h, he⟩ | ⟨h, he⟩
  · rw [he, finish_of_bulk res (hop ▸ h)]
    rfl
  · rw [he, finish_of_single res (hop ▸ h)]
    rfl

theorem exchange_commutesWithPort (out : Frame) {cont : Frame → State → State}
    (hc : ∀ q, CommutesWithPort (cont q)) : CommutesWithPort (exchange out cont) := by
  intro valid w queue s
  rcases exchange_of_environment (s := s) (s' := s.withPort valid w queue) rfl rfl rfl rfl out cont with
    ⟨q, _, _, _, h, h'⟩ | ⟨_, _, _, h, h'⟩ <;> rw [h, h']
  · exact hc q valid w queue (s.withLink false _ _ _)
  · rfl

theorem sendWrite_commutesWithPort (f : Frame) : CommutesWithPort (sendWrite f) :=
  exchange_commutesWithPort f fun _ valid w queue s => by
    have hp : (s.withPort valid w queue).phase = s.phase := rfl
    simp only [hp, finish_commutesWithPort .ok valid w queue s]
    split <;> rfl

theorem sendRead_commutesWithPort (r : Reg) : CommutesWithPort (sendRead r) :=
  exchange_commutesWithPort (rdreq r.addr) fun _ valid w queue s => by
    have hp : (s.withPort valid w queue).phase = s.phase := rfl
    simp only [hp]
    split <;> rfl

theorem comparePhase_commutesWithPort : CommutesWithPort comparePhase := by
  intro valid w queue s
  have hfail : raiseWriteExhausted (s.withPort valid w queue) = (raiseWriteExhausted s).withPort valid w queue :=
    finish_commutesWithPort .fail valid w queue (State.setErr true s)
  simp only [comparePhase, hfail, finish_commutesWithPort .ok valid w queue s, apply_ite (State.withPort valid w queue)]
  rfl

theorem backoffPhase_commutesWithPort : CommutesWithPort backoffPhase := by
  intro valid w queue s
  rcases takeDelay_of_environment (s := s) (s' := s.withPort valid w queue) rfl with ⟨_, h, h'⟩ | ⟨h, h'⟩
  · simp only [backoffPhase, h, h']
    rfl
  · simp only [backoffPhase, h, h']

theorem bulkNextPhase_commutesWithPort : CommutesWithPort bulkNextPhase := by
  intro valid w queue s
  simp only [bulkNextPhase, apply_ite (State.withPort valid w queue)]
  rfl

/-- A busy controller's step hands the port on and does the same whatever stands there (R20). -/
theorem step_withPort {s : State} (hbusy : s.phase ≠ .idle) (valid : Bool) (w : CommandWord) (queue : List CommandWord) :
    step (s.withPort valid w queue) = mapNext (State.withPort valid w queue) (step s) := by
  have hnext : ∀ {f : State → State}, CommutesWithPort f →
      Host.Outcome.next (f (s.withPort valid w queue)) = mapNext (State.withPort valid w queue) (.next (f s)) :=
    fun hf => congrArg Host.Outcome.next (hf valid w queue s)
  have hp' : (s.withPort valid w queue).phase = s.phase := rfl
  cases hp : s.phase with rw [hp] at hp'
  | idle => exact absurd hp hbusy
  | wEncode =>
    rw [step_wEncode hp, step_wEncode hp']
    rfl
  | wTransmit =>
    rw [step_transmit (.inl hp), step_transmit (.inl hp')]
    exact hnext (sendWrite_commutesWithPort s.txf)
  | wVerify =>
    rw [step_request (.inl hp), step_request (.inl hp')]
    exact hnext (sendRead_commutesWithPort (Reg.ofAddr s.cur))
  | wCompare =>
    rw [step_wCompare hp, step_wCompare hp']
    exact hnext comparePhase_commutesWithPort
  | wBackoff =>
    rw [step_wBackoff hp, step_wBackoff hp']
    exact hnext backoffPhase_commutesWithPort
  | sEncode =>
    rw [step_sEncode hp, step_sEncode hp']
    rfl
  | sTransmit =>
    rw [step_transmit (.inr hp), step_transmit (.inr hp')]
    exact hnext (sendWrite_commutesWithPort s.txf)
  | rExchange =>
    rw [step_request (.inr hp), step_request (.inr hp')]
    exact hnext (sendRead_commutesWithPort (Reg.ofAddr s.cur))
  | rDecode =>
    rw [step_rDecode hp, step_rDecode hp']
    exact congrArg Host.Outcome.next (finish_commutesWithPort .ok valid w queue
      { s with mirror := s.mirror.storeReply (Reg.ofAddr s.cur) s.rbf })
  | bNext =>
    rw [step_bNext hp, step_bNext hp']
    exact hnext bulkNextPhase_commutesWithPort

/-! ### The sequencing registers that are not read -/

/-- The blanks are in the sequencing registers only (R19). -/
theorem State.blankUnread_eq (s : State) : s.blankUnread = { s with
    op := s.blankUnread.op, cur := s.blankUnread.cur, att := s.blankUnread.att, txf := s.blankUnread.txf,
    rbf := s.blankUnread.rbf, seq := s.blankUnread.seq, acc := s.blankUnread.acc } := by
  obtain ⟨_, _, phase, op⟩ := s
  cases phase <;> cases hop : op.isBulk <;> simp [State.blankUnread, hop]

theorem State.blankUnread_observe (s : State) : s.blankUnread.observe = s.observe := by
  rw [s.blankUnread_eq]
  rfl

theorem State.blankUnread_phase (s : State) : s.blankUnread.phase = s.phase := by
  rw [s.blankUnread_eq]

theorem State.blankUnread_select (s : State) : s.blankUnread.select = s.select := by
  rw [s.blankUnread_eq]

theorem State.blankUnread_history (s : State) : s.blankUnread.history = s.history := by
  rw [s.blankUnread_eq]

theorem State.blankUnread_transport (s : State) : s.blankUnread.transport = s.transport := by
  rw [s.blankUnread_eq]

theorem State.blankUnread_freeDraws (s : State) : s.blankUnread.freeDraws = s.freeDraws := by
  rw [s.blankUnread_eq]

theorem State.blankUnread_delayHangsAfter (s : State) : s.blankUnread.delayHangsAfter = s.delayHangsAfter := by
  rw [s.blankUnread_eq]

theorem State.blankUnread_cmdValid (s : State) : s.blankUnread.cmdValid = s.cmdValid := by
  rw [s.blankUnread_eq]

theorem State.blankUnread_cw (s : State) : s.blankUnread.cw = s.cw := by
  rw [s.blankUnread_eq]

/-- A transmit phase reads `txf` (R122, R135). -/
theorem State.blankUnread_txf {s : State} (h : s.phase = .wTransmit ∨ s.phase = .sTransmit) :
    s.blankUnread.txf = s.txf := by
  rcases h with hp | hp <;> cases hop : s.op.isBulk <;> simp [State.blankUnread, hp, hop]

/-- A read phase reads `cur` (R123, R105). -/
theorem State.blankUnread_cur {s : State} (h : s.phase = .wVerify ∨ s.phase = .rExchange) :
    s.blankUnread.cur = s.cur := by
  rcases h with hp | hp <;> cases hop : s.op.isBulk <;> simp [State.blankUnread, hp, hop]

theorem State.blankUnread_idem (s : State) : s.blankUnread.blankUnread = s.blankUnread := by
  cases hp : s.phase <;> cases hop : s.op.isBulk <;> simp [State.blankUnread, hp, hop]

/-- What the blanks cover does not depend on what an exchange writes. -/
theorem State.blankUnread_withLink (b : Bool) (tr : List Answer) (fd : Nat) (es : List Event) (s : State) :
    (s.withLink b tr fd es).blankUnread = s.blankUnread.withLink b tr fd es := by
  cases hp : s.phase <;> cases hop : s.op.isBulk <;> simp [State.blankUnread, State.withLink, hp, hop]

/-- An operation that reads, in a phase, no register blanked there. -/
def BlindToUnread (p : Phase) (f : State → State) : Prop :=
  ∀ s : State, s.phase = p → (f s.blankUnread).blankUnread = (f s).blankUnread

/-- An exchange reads no blanked register if what follows it reads none: the reply is the same. -/
theorem exchange_blindToUnread {p : Phase} (out : Frame) {cont : Frame → State → State}
    (hc : ∀ q, BlindToUnread p (cont q)) : BlindToUnread p (exchange out cont) := by
  intro s hp
  rcases exchange_of_environment s.blankUnread_select s.blankUnread_transport s.blankUnread_freeDraws
      s.blankUnread_history out cont with
    ⟨q, tr, fd, es, h, h'⟩ | ⟨tr, fd, es, h, h'⟩ <;> rw [h, h', ← State.blankUnread_withLink]
  · exact hc q (s.withLink false tr fd es) hp
  · exact State.blankUnread_idem _

theorem sendWrite_blindToUnread_wTransmit (f : Frame) : BlindToUnread .wTransmit (sendWrite f) :=
  exchange_blindToUnread f fun _ s hp => by
    cases hop : s.op.isBulk <;> simp [State.blankUnread, hp, hop, State.goto]

theorem sendWrite_blindToUnread_sTransmit (f : Frame) : BlindToUnread .sTransmit (sendWrite f) :=
  exchange_blindToUnread f fun _ s hp => by
    cases hop : s.op.isBulk <;> simp [State.blankUnread, hp, hop, finish_of_bulk, finish_of_single]

theorem sendRead_blindToUnread_wVerify (r : Reg) : BlindToUnread .wVerify (sendRead r) :=
  exchange_blindToUnread (rdreq r.addr) fun _ s hp => by
    cases hop : s.op.isBulk <;> simp [State.blankUnread, hp, hop, State.goto]

theorem sendRead_blindToUnread_rExchange (r : Reg) : BlindToUnread .rExchange (sendRead r) :=
  exchange_blindToUnread (rdreq r.addr) fun _ s hp => by
    cases hop : s.op.isBulk <;> simp [State.blankUnread, hp, hop, State.goto]

theorem encodePhase_blindToUnread : BlindToUnread .wEncode encodePhase := by
  intro s hp
  cases hop : s.op.isBulk <;> simp [State.blankUnread, hp, hop, encodePhase, State.goto]

/-- The blanks of W_COMPARE are `seq` and `acc` outside a bulk command, which neither the compare nor the end of a single
command reads (R124, R140). -/
theorem comparePhase_blindToUnread : BlindToUnread .wCompare comparePhase := by
  intro s hp
  cases hop : s.op.isBulk with
  | true => simp [State.blankUnread, hp, hop]
  | false =>
    have hblank : s.blankUnread = { s with seq := 0, acc := false } := by simp [State.blankUnread, hp, hop]
    rw [hblank]
    simp only [comparePhase, apply_ite State.blankUnread]
    simp [raiseWriteExhausted, State.setErr, State.goto, finish_of_single, hop, State.blankUnread]

theorem backoffPhase_blindToUnread : BlindToUnread .wBackoff backoffPhase := by
  intro s hp
  rcases takeDelay_of_environment s.blankUnread_delayHangsAfter with ⟨d, h, h'⟩ | ⟨h, h'⟩
  · simp only [backoffPhase, h, h']
    cases hop : s.op.isBulk <;> simp [State.blankUnread, hp, hop, State.goto, State.record]
  · simp only [backoffPhase, h, h', State.blankUnread_idem]

theorem statusEncodePhase_blindToUnread : BlindToUnread .sEncode statusEncodePhase := by
  intro s hp
  cases hop : s.op.isBulk <;> simp [State.blankUnread, hp, hop, statusEncodePhase, State.goto]

theorem readDecodePhase_blindToUnread : BlindToUnread .rDecode readDecodePhase := by
  intro s hp
  cases hop : s.op.isBulk <;>
    simp [State.blankUnread, hp, hop, readDecodePhase, finish_of_bulk, finish_of_single]

theorem bulkNextPhase_blindToUnread : BlindToUnread .bNext bulkNextPhase := by
  intro s hp
  simp only [bulkNextPhase, apply_ite State.blankUnread]
  cases hop : s.op.isBulk <;> simp [State.blankUnread, hp, hop, State.goto, done, State.record, State.bulkResult]

theorem hostTurn_blindToUnread : BlindToUnread .idle hostTurn := by
  intro s hp
  cases hq : s.hostQueue <;> simp [State.blankUnread, hp, hq, hostTurn]

/-- A command accepted in IDLE writes, before they are read, all the sequencing registers it uses (D27). -/
theorem exec_command_blankUnread {i : Instr} {s : State} (hc : i.isCommand = true) (hp : s.phase = .idle) :
    mapNext State.blankUnread (exec i s.blankUnread) = mapNext State.blankUnread (exec i s) := by
  obtain ⟨⟩ := s
  cases hp
  cases i with
  | wrCtrl _ | wrTorque _ | wrOff _ | wrBlank _ | wrDecay _ | wrStall _ | wrDrive _ | wrStatus _ => cases hc
  | rdCtrl | rdTorque | rdOff | rdBlank | rdDecay | rdStall | rdDrive | rdStatus => cases hc
  | _ => rfl

theorem State.blankUnread_of_idle {s : State} (hp : s.phase = .idle) :
    s.blankUnread = { s with op := .setf, cur := 0, att := 0, txf := 0, rbf := 0, seq := 0, acc := false } := by
  simp [State.blankUnread, hp]

/-- A step reads no register that is blanked in its phase (R19, D27). -/
theorem step_blankUnread (s : State) :
    mapNext State.blankUnread (step s.blankUnread) = mapNext State.blankUnread (step s) := by
  have hnext : ∀ {f : State → State}, BlindToUnread s.phase f →
      mapNext State.blankUnread (.next (f s.blankUnread)) = mapNext State.blankUnread (.next (f s)) :=
    fun hf => congrArg Host.Outcome.next (hf s rfl)
  have hp' : s.blankUnread.phase = s.phase := s.blankUnread_phase
  cases hp : s.phase with rw [hp] at hp' hnext
  | idle =>
    have hvalid := s.blankUnread_cmdValid
    cases hv : s.cmdValid with
    | false =>
      rw [step_hostTurn hp hv, step_hostTurn hp' (hvalid.trans hv)]
      exact hnext hostTurn_blindToUnread
    | true =>
      rw [step_command hp hv, step_command hp' (hvalid.trans hv), s.blankUnread_cw]
      cases hd : decodeCommand s.cw with
      | none => rfl
      | some i => exact exec_command_blankUnread (decodeCommand_isCommand hd) hp
  | wEncode =>
    rw [step_wEncode hp, step_wEncode hp']
    exact hnext encodePhase_blindToUnread
  | wTransmit =>
    rw [step_transmit (.inl hp), step_transmit (.inl hp'), State.blankUnread_txf (.inl hp)]
    exact hnext (sendWrite_blindToUnread_wTransmit s.txf)
  | wVerify =>
    rw [step_request (.inl hp), step_request (.inl hp'), State.blankUnread_cur (.inl hp)]
    exact hnext (sendRead_blindToUnread_wVerify (Reg.ofAddr s.cur))
  | wCompare =>
    rw [step_wCompare hp, step_wCompare hp']
    exact hnext comparePhase_blindToUnread
  | wBackoff =>
    rw [step_wBackoff hp, step_wBackoff hp']
    exact hnext backoffPhase_blindToUnread
  | sEncode =>
    rw [step_sEncode hp, step_sEncode hp']
    exact hnext statusEncodePhase_blindToUnread
  | sTransmit =>
    rw [step_transmit (.inr hp), step_transmit (.inr hp'), State.blankUnread_txf (.inr hp)]
    exact hnext (sendWrite_blindToUnread_sTransmit s.txf)
  | rExchange =>
    rw [step_request (.inr hp), step_request (.inr hp'), State.blankUnread_cur (.inr hp)]
    exact hnext (sendRead_blindToUnread_rExchange (Reg.ofAddr s.cur))
  | rDecode =>
    rw [step_rDecode hp, step_rDecode hp']
    exact hnext readDecodePhase_blindToUnread
  | bNext =>
    rw [step_bNext hp, step_bNext hp']
    exact hnext bulkNextPhase_blindToUnread

/-! ### Agreement -/

theorem step_keeps_agreement {s s' : State} (h : s.blankUnread = s'.blankUnread) :
    mapNext State.blankUnread (step s) = mapNext State.blankUnread (step s') := by
  rw [← step_blankUnread s, h, step_blankUnread s']

theorem observe_eq_of_agreement {s s' : State} (h : s.blankUnread = s'.blankUnread) : s.observe = s'.observe := by
  rw [← s.blankUnread_observe, h, s'.blankUnread_observe]

theorem agreement_of_idle {s s' : State} (hp : s.phase = .idle) (h : State.sameButSequencing s s') :
    s.blankUnread = s'.blankUnread := by
  have hp' : s'.phase = .idle := by rw [h]; exact hp
  rw [State.blankUnread_of_idle hp, State.blankUnread_of_idle hp', h]

/-- Two outcomes that agree are both the same refusal, or next states that agree. -/
theorem agreement_cases {o o' : Host.Outcome State Fault Refusal}
    (h : mapNext State.blankUnread o = mapNext State.blankUnread o') :
    (∃ r, o = .refused r ∧ o' = .refused r) ∨
    (∃ t t', o = .next t ∧ o' = .next t' ∧ t.blankUnread = t'.blankUnread) := by
  cases o with
  | fault r => cases r
  | next t =>
    cases o' with
    | fault r => cases r
    | refused r => cases h
    | next t' => exact .inr ⟨t, t', rfl, rfl, Host.Outcome.next.inj h⟩
  | refused r =>
    cases o' with
    | fault r => cases r
    | refused r' =>
      cases h
      exact .inl ⟨r, rfl, rfl⟩
    | next t' => cases h

/-- Runs from two states that agree look alike. -/
theorem steps_observe_of_agreement {s s' : State} (k : Nat) (h : s.blankUnread = s'.blankUnread) :
    mapNext State.observe (steps k s) = mapNext State.observe (steps k s') := by
  induction k generalizing s s' with
  | zero => exact congrArg Host.Outcome.next (observe_eq_of_agreement h)
  | succ k ih =>
    rcases agreement_cases (step_keeps_agreement h) with ⟨r, hr, hr'⟩ | ⟨t, t', ht, ht', hagree⟩
    · rw [steps_succ_of_refused k hr, steps_succ_of_refused k hr']
    · rw [steps_succ_of_next k ht, steps_succ_of_next k ht']
      exact ih hagree

end Sys2Proof.Machine

open Sys2Proof Sys2Proof.Machine

/-- Settles O16: every operation of a busy controller commutes with replacing the port. -/
theorem busyPortIgnored : Obligations.BusyPortIgnored := by
  unfold Obligations.BusyPortIgnored
  exact fun s valid w queue hbusy => step_withPort hbusy valid w queue

/-- Settles O52: a step reads no blanked register, so its outcome is that of the blanked state. -/
theorem stepKeepsAgreement : Obligations.StepKeepsAgreement := by
  unfold Obligations.StepKeepsAgreement
  exact ⟨fun _ _ => step_keeps_agreement, fun _ _ => observe_eq_of_agreement, fun _ _ => agreement_of_idle⟩

/-- Settles O50: two such states agree, each step keeps the agreement, and states that agree look alike. -/
theorem sequencingUnseenFromIdle : Obligations.SequencingUnseenFromIdle := by
  unfold Obligations.SequencingUnseenFromIdle
  exact fun s s' k hidle h => steps_observe_of_agreement k (agreement_of_idle hidle h)
end

section
/-! SUPPORT. The codec's round trips and the reserved payload bits (spec/40_codec.md section 5, spec/30_encoding.md R58). -/

namespace Sys2Proof.Machine

/-! ### The reserved payload bits -/

theorem Reg.payloadMask_and_reserved (r : Reg) : 0x0FFF &&& r.reserved = r.reserved := by cases r <;> decide

/-- No field covers a reserved bit (R58, D4). -/
theorem Field.reserved_getLsbD_of_inside {f : Field} {i : Nat} (h : i < f.width) :
    f.reg.reserved.getLsbD (f.lo + i) = false := by
  have hcovered := congrArg (fun x => BitVec.getLsbD x i) (Field.covered_and_mask f)
  rw [← Bool.not_eq_true]
  intro hreserved
  simp [Reg.covered, Field.mask_getLsbD_of_lt h, hreserved] at hcovered

/-- ENC sends zeros in the reserved bits (R58, D4). -/
theorem Mirror.encode_and_reserved (m : Mirror) (r : Reg) : m.encode r &&& r.reserved = 0 := by
  apply BitVec.eq_of_getLsbD_eq
  intro i _
  rw [BitVec.getLsbD_and, BitVec.ofNat_eq_ofNat, BitVec.getLsbD_zero]
  by_cases hi : i < 12
  · cases hreserved : r.reserved.getLsbD i with
    | false => rw [Bool.and_false]
    | true =>
      have huncovered : ∀ f : Field, f.reg = r → ¬(f.lo ≤ i ∧ i < f.lo + f.width) := by
        rintro f rfl ⟨hlo, hhi⟩
        have hinside := Field.reserved_getLsbD_of_inside (f := f) (i := i - f.lo) (by omega)
        rw [Nat.add_sub_cancel' hlo, hreserved] at hinside
        cases hinside
      rw [m.encode_getLsbD_of_uncovered huncovered, Reg.addrBits_getLsbD_of_lt r hi, Bool.false_and]
  · rw [← Reg.payloadMask_and_reserved r, BitVec.getLsbD_and, payloadMask_getLsbD, decide_eq_false hi, Bool.false_and,
      Bool.and_false]

/-- Two frames that compare alike have the same reserved bits (R58, R124). -/
theorem and_reserved_of_payloadsMatch {tx rb : Frame} (h : payloadsMatch tx rb = true) (r : Reg) :
    rb &&& r.reserved = tx &&& r.reserved := by
  have hpayload : tx &&& 0x0FFF = rb &&& 0x0FFF := beq_iff_eq.1 h
  rw [← Reg.payloadMask_and_reserved r, ← BitVec.and_assoc, ← BitVec.and_assoc, hpayload]

/-! ### The top nibble -/

theorem payloadsMatch_of_extract {q q' : Frame} (h : q.extractLsb' 0 12 = q'.extractLsb' 0 12) :
    payloadsMatch q q' = true := by
  rw [payloadsMatch_iff]
  intro i hi
  have hbit := congrArg (fun x => BitVec.getLsbD x i) h
  simpa [BitVec.getLsbD_extractLsb', hi] using hbit

/-- A compare with one of two frames of the same payload is a compare with the other (R124, D11). -/
theorem payloadsMatch_congr {q q' : Frame} (h : payloadsMatch q q' = true) (f : Frame) :
    payloadsMatch f q = payloadsMatch f q' := by
  have hpayload : q &&& 0x0FFF = q' &&& 0x0FFF := beq_iff_eq.1 h
  rw [payloadsMatch, payloadsMatch, hpayload]

/-! ### The round trip of a register that fits -/

/-- A cell that fits has no bit above its field's width (R15). -/
theorem Field.and_mask_of_fits {f : Field} {c : Cell} (h : Field.fits f c = true) : c &&& Field.mask f = c := by
  apply BitVec.eq_of_toNat_eq
  rw [Field.and_mask_toNat, Nat.mod_eq_of_lt ((Field.fits_iff f c).1 h)]

/-- Decoding a register's own frame gives the register back, where its cells fit (R89). -/
theorem Mirror.storeReply_encode_of_fits (m : Mirror) {r : Reg} (h : ∀ f : Field, f.reg = r → Field.fits f (m.get f) = true) :
    m.storeReply r (m.encode r) = m := by
  apply Mirror.ext_get
  intro f
  by_cases hf : f.reg = r
  · subst hf
    rw [Mirror.get_storeReply_encode, Field.and_mask_of_fits (h f rfl)]
  · rw [Mirror.storeReply_get_of_ne m r _ f hf]

end Sys2Proof.Machine

open Sys2Proof Sys2Proof.Machine

/-- Settles O8: field by field one way, and bit by bit the other. -/
theorem codecRoundTrip : Obligations.CodecRoundTrip := by
  unfold Obligations.CodecRoundTrip
  refine fun m r => ⟨?_, m.storeReply_encode_of_fits, storeReply_encode m r⟩
  rintro f rfl
  rw [Mirror.get_storeReply_encode, Field.and_mask_toNat]

/-- Settles O11: a readback that matched would have the reserved bits of the frame sent, which are zeros. -/
theorem reservedBitsDefeatTheCompare : Obligations.ReservedBitsDefeatTheCompare := by
  unfold Obligations.ReservedBitsDefeatTheCompare
  refine fun m r q => ⟨m.encode_and_reserved r, fun hq => ?_⟩
  rw [← Bool.not_eq_true]
  exact fun hmatch => hq ((and_reserved_of_payloadsMatch hmatch r).trans (m.encode_and_reserved r))

/-- Settles O12: the decode and the compare are both functions of the payload. -/
theorem replyTopNibbleIgnored : Obligations.ReplyTopNibbleIgnored := by
  unfold Obligations.ReplyTopNibbleIgnored
  intro m r f q q' h
  have hpayload := payloadsMatch_of_extract h
  exact ⟨(m.storeReply_of_payloadsMatch r hpayload).symm, payloadsMatch_congr hpayload f⟩
end

section
/-! SUPPORT. The decoder and the encoder (spec/30_encoding.md): the forms an instruction can have, the codec of frames by
register, the fields of a command word, and so why decoding undoes encoding, why a word has one spelling and why it decodes
exactly if it spells a row of the table. -/

namespace Sys2Proof.Machine

/-! ### The forms of an instruction -/

/-- The commands without operands (R62). -/
def Instr.isBare : Instr → Bool
  | .readAll | .writeAll | .init | .enable | .disable | .getStatus | .clearStatus | .clearError => true
  | _ => false

/-- Every instruction is a W frame, a Q frame, SETF, READ.r, WRITE.r or a command without operands (R59, R62). -/
theorem Instr.forms (i : Instr) :
    (∃ m r, i = wrOf m r) ∨ (∃ r, i = Instr.rdOf r) ∨ (∃ f v, i = .setf f v) ∨ (∃ r, i = Instr.readOf r) ∨
    (∃ r, i = Instr.writeOf r) ∨ Instr.isBare i = true := by
  cases i with
  | wrCtrl c => exact .inl ⟨{ Mirror.defaults with ctrl := c }, .ctrl, rfl⟩
  | wrTorque c => exact .inl ⟨{ Mirror.defaults with torque := c }, .torque, rfl⟩
  | wrOff c => exact .inl ⟨{ Mirror.defaults with off := c }, .off, rfl⟩
  | wrBlank c => exact .inl ⟨{ Mirror.defaults with blank := c }, .blank, rfl⟩
  | wrDecay c => exact .inl ⟨{ Mirror.defaults with decay := c }, .decay, rfl⟩
  | wrStall c => exact .inl ⟨{ Mirror.defaults with stall := c }, .stall, rfl⟩
  | wrDrive c => exact .inl ⟨{ Mirror.defaults with drive := c }, .drive, rfl⟩
  | wrStatus c => exact .inl ⟨{ Mirror.defaults with status := c }, .status, rfl⟩
  | rdCtrl => exact .inr (.inl ⟨.ctrl, rfl⟩)
  | rdTorque => exact .inr (.inl ⟨.torque, rfl⟩)
  | rdOff => exact .inr (.inl ⟨.off, rfl⟩)
  | rdBlank => exact .inr (.inl ⟨.blank, rfl⟩)
  | rdDecay => exact .inr (.inl ⟨.decay, rfl⟩)
  | rdStall => exact .inr (.inl ⟨.stall, rfl⟩)
  | rdDrive => exact .inr (.inl ⟨.drive, rfl⟩)
  | rdStatus => exact .inr (.inl ⟨.status, rfl⟩)
  | setf f v => exact .inr (.inr (.inl ⟨f, v, rfl⟩))
  | readCtrl => exact .inr (.inr (.inr (.inl ⟨.ctrl, rfl⟩)))
  | readTorque => exact .inr (.inr (.inr (.inl ⟨.torque, rfl⟩)))
  | readOff => exact .inr (.inr (.inr (.inl ⟨.off, rfl⟩)))
  | readBlank => exact .inr (.inr (.inr (.inl ⟨.blank, rfl⟩)))
  | readDecay => exact .inr (.inr (.inr (.inl ⟨.decay, rfl⟩)))
  | readStall => exact .inr (.inr (.inr (.inl ⟨.stall, rfl⟩)))
  | readDrive => exact .inr (.inr (.inr (.inl ⟨.drive, rfl⟩)))
  | readStatus => exact .inr (.inr (.inr (.inl ⟨.status, rfl⟩)))
  | writeCtrl => exact .inr (.inr (.inr (.inr (.inl ⟨.ctrl, rfl⟩))))
  | writeTorque => exact .inr (.inr (.inr (.inr (.inl ⟨.torque, rfl⟩))))
  | writeOff => exact .inr (.inr (.inr (.inr (.inl ⟨.off, rfl⟩))))
  | writeBlank => exact .inr (.inr (.inr (.inr (.inl ⟨.blank, rfl⟩))))
  | writeDecay => exact .inr (.inr (.inr (.inr (.inl ⟨.decay, rfl⟩))))
  | writeStall => exact .inr (.inr (.inr (.inr (.inl ⟨.stall, rfl⟩))))
  | writeDrive => exact .inr (.inr (.inr (.inr (.inl ⟨.drive, rfl⟩))))
  | writeStatus => exact .inr (.inr (.inr (.inr (.inl ⟨.status, rfl⟩))))
  | _ => exact .inr (.inr (.inr (.inr (.inr rfl))))

/-! ### Frames -/

theorem encode_wrOf (m : Mirror) (r : Reg) : encode (wrOf m r) = .frame (m.encode r) := by cases r <;> rfl

theorem encode_rdOf (r : Reg) : encode (Instr.rdOf r) = .frame (rdreq r.addr) := by cases r <;> rfl

/-- A W frame is well-formed if the cells of its register fit (R51, R89). -/
theorem wellFormed_wrOf (m : Mirror) (r : Reg) :
    (wrOf m r).wellFormed = true ↔ ∀ f : Field, f.reg = r → Field.fits f (m.get f) = true := by
  have hall : (wrOf m r).wellFormed = r.fields.all fun f => Field.fits f (m.get f) := by
    cases r <;> simp [wrOf, Instr.wellFormed, CtrlCells.fits, TorqueCells.fits, OffCells.fits, BlankCells.fits,
      DecayCells.fits, StallCells.fits, DriveCells.fits, StatusCells.fits, Reg.fields, Mirror.get, Bool.and_assoc]
  rw [hall, List.all_eq_true]
  exact forall_congr' fun f => by rw [Reg.mem_fields]

/-- A frame with bit 15 clear decodes as a W frame of its address, if its reserved bits are zeros (R59). -/
theorem decodeFrame_of_isWrite {f : Frame} {r : Reg} (hw : Frame.isWrite f = true) (ha : Frame.address f = r.addr)
    (m : Mirror) : decodeFrame f = if f &&& r.reserved = 0 then some (wrOf (m.storeReply r f) r) else none := by
  simp only [decodeFrame, ha, Reg.ofAddr_addr, hw, if_true, wrOfFrame_eq_wrOf m]

/-- A frame with bit 15 set decodes as the read request of its address, if its payload is zeros (R59). -/
theorem decodeFrame_of_isRead {f : Frame} (hw : Frame.isWrite f = false) :
    decodeFrame f = if f &&& 0x0FFF = 0 then some (Instr.rdOf (Reg.ofAddr (Frame.address f))) else none := by
  simp only [decodeFrame, hw, Bool.false_eq_true, if_false]

theorem isWrite_encode (m : Mirror) (r : Reg) : Frame.isWrite (m.encode r) = true := by
  rw [Frame.isWrite, m.encode_writeFlag r]
  rfl

theorem decodeFrame_encode {m : Mirror} {r : Reg} (h : (wrOf m r).wellFormed = true) :
    decodeFrame (m.encode r) = some (wrOf m r) := by
  rw [decodeFrame_of_isWrite (isWrite_encode m r) (m.encode_address r) m, if_pos (m.encode_and_reserved r),
    m.storeReply_encode_of_fits ((wellFormed_wrOf m r).1 h)]

/-- A read request is the only frame of its address with bit 15 set and zeros below it (R52, R88). -/
theorem rdreq_address_eq {f : Frame} (hw : Frame.isWrite f = false) (hpayload : f &&& 0x0FFF = 0) :
    rdreq (Frame.address f) = f := by
  have hflag : f.getLsbD 15 = true := by simpa [Frame.isWrite] using hw
  apply BitVec.eq_of_getLsbD_eq
  intro i hi
  have hbit := congrArg (fun x => BitVec.getLsbD x i) hpayload
  clear hpayload hw
  unfold rdreq Frame.address
  interval_cases i <;> simp_all

/-- A frame that decodes is the frame of what it decodes to, which fits (R54, R59). -/
theorem encode_of_decodeFrame {f : Frame} {i : Instr} (h : decodeFrame f = some i) :
    i.wellFormed = true ∧ encode i = .frame f := by
  cases hw : Frame.isWrite f with
  | true =>
    have ha : Frame.address f = (Reg.ofAddr (Frame.address f)).addr := (Reg.addr_ofAddr _).symm
    rw [decodeFrame_of_isWrite hw ha Mirror.defaults] at h
    split at h
    case isFalse => cases h
    case isTrue hreserved =>
      cases h
      refine ⟨(wellFormed_wrOf _ _).2 ?_, ?_⟩
      · rintro g hg
        exact hg ▸ Mirror.fits_storeReply_cell _ g f
      · rw [encode_wrOf, storeReply_encode, writeFrame_eq hw ha hreserved]
  | false =>
    rw [decodeFrame_of_isRead hw] at h
    split at h
    case isFalse => cases h
    case isTrue hpayload =>
      cases h
      refine ⟨?_, ?_⟩
      · cases Reg.ofAddr (Frame.address f) <;> rfl
      · rw [encode_rdOf, Reg.addr_ofAddr, rdreq_address_eq hw hpayload]

/-! ### Command words -/

/-- The places of zeros of a command word are bit 27 and bits 23:21 (R60). -/
theorem unused_eq_zero_iff (w : CommandWord) :
    w &&& 0x08E00000 = 0 ↔ w.getLsbD 27 = false ∧ w.extractLsb' 21 3 = 0 := by
  constructor
  · intro h
    have hbit : ∀ i, (w &&& 0x08E00000).getLsbD i = false := fun i => by rw [h]; simp
    have h21 : w.getLsbD 21 = false := by simpa using hbit 21
    have h22 : w.getLsbD 22 = false := by simpa using hbit 22
    have h23 : w.getLsbD 23 = false := by simpa using hbit 23
    refine ⟨by simpa using hbit 27, ?_⟩
    apply BitVec.eq_of_getLsbD_eq
    intro i hi
    clear h hbit
    interval_cases i <;> simp_all
  · rintro ⟨h27, h21⟩
    apply BitVec.eq_of_getLsbD_eq
    intro i hi
    have hbit : ∀ j, (w.extractLsb' 21 3).getLsbD j = false := fun j => by rw [h21]; simp
    have b0 := hbit 0
    have b1 := hbit 1
    have b2 := hbit 2
    clear h21 hbit
    interval_cases i <;> simp_all

theorem commandWord_unused (op : BitVec 4) (reg : Addr) (fid : BitVec 5) (val : BitVec 16) :
    commandWord op reg fid val &&& 0x08E00000 = 0 := by
  apply BitVec.eq_of_getLsbD_eq
  intro i hi
  interval_cases i <;> simp [commandWord]

theorem commandWord_op (op : BitVec 4) (reg : Addr) (fid : BitVec 5) (val : BitVec 16) :
    (commandWord op reg fid val).extractLsb' 28 4 = op := by
  apply BitVec.eq_of_getLsbD_eq
  intro i hi
  interval_cases i <;> simp [commandWord]

theorem commandWord_reg (op : BitVec 4) (reg : Addr) (fid : BitVec 5) (val : BitVec 16) :
    (commandWord op reg fid val).extractLsb' 24 3 = reg := by
  apply BitVec.eq_of_getLsbD_eq
  intro i hi
  interval_cases i <;> simp [commandWord]

theorem commandWord_fid (op : BitVec 4) (reg : Addr) (fid : BitVec 5) (val : BitVec 16) :
    (commandWord op reg fid val).extractLsb' 16 5 = fid := by
  apply BitVec.eq_of_getLsbD_eq
  intro i hi
  interval_cases i <;> simp [commandWord]

theorem commandWord_val (op : BitVec 4) (reg : Addr) (fid : BitVec 5) (val : BitVec 16) :
    (commandWord op reg fid val).extractLsb' 0 16 = val := by
  apply BitVec.eq_of_getLsbD_eq
  intro i hi
  interval_cases i <;> simp [commandWord]

theorem Field.ofFid_fid (f : Field) : Field.ofFid f.fid = f := by cases f <;> rfl

theorem Field.fid_ofFid (i : BitVec 5) : (Field.ofFid i).fid = i := by revert i; decide

/-- A word with operation code 1 and no register operand is a SETF, of any field and value (R61, R62). -/
theorem decodeCommand_setf {w : CommandWord} (hunused : w &&& 0x08E00000 = 0) (hop : w.extractLsb' 28 4 = 1)
    (hreg : w.extractLsb' 24 3 = 0) :
    decodeCommand w = some (.setf (Field.ofFid (w.extractLsb' 16 5)) (w.extractLsb' 0 16)) := by
  simp only [decodeCommand, hunused, hop, hreg, if_true]
  rfl

theorem decodeCommand_encode_setf (f : Field) (v : BitVec 16) :
    decodeCommand (commandWord 0x1 0 f.fid v) = some (.setf f v) := by
  rw [decodeCommand_setf (commandWord_unused ..) (commandWord_op ..) (commandWord_reg ..), commandWord_fid,
    commandWord_val, Field.ofFid_fid]

theorem encode_readOf_eq (r : Reg) : encode (Instr.readOf r) = regCommand 0x2 r := by cases r <;> rfl

theorem encode_writeOf_eq (r : Reg) : encode (Instr.writeOf r) = regCommand 0x3 r := by cases r <;> rfl

theorem encode_ofBareOp {op : BitVec 4} {i : Instr} (h : Instr.ofBareOp op.toNat = some i) :
    i.wellFormed = true ∧ encode i = bareCommand op := by
  have hall : ∀ op : BitVec 4, (Instr.ofBareOp op.toNat).all
      (fun i => decide (i.wellFormed = true ∧ encode i = bareCommand op)) = true := by decide
  have hi := hall op
  rw [h] at hi
  exact of_decide_eq_true hi

/-- A command word that decodes is the word of what it decodes to (R60 to R62). -/
theorem encode_of_decodeCommand {w : CommandWord} {i : Instr} (h : decodeCommand w = some i) :
    i.wellFormed = true ∧ encode i = .command w := by
  unfold decodeCommand at h
  simp only at h
  split at h
  case isFalse => cases h
  case isTrue hunused =>
    have hw := eq_commandWord_of_unused_zero hunused
    split at h
    next hop =>
      have hop : w.extractLsb' 28 4 = 1 := BitVec.eq_of_toNat_eq hop
      split at h
      case isFalse => cases h
      case isTrue hreg =>
        cases h
        rw [hop, hreg] at hw
        exact ⟨rfl, by rw [encode, Field.fid_ofFid, ← hw]⟩
    next hop =>
      have hop : w.extractLsb' 28 4 = 2 := BitVec.eq_of_toNat_eq hop
      split at h
      case isFalse => cases h
      case isTrue hoperands =>
        obtain ⟨hfid, hval⟩ := hoperands
        cases h
        rw [hop, hfid, hval] at hw
        refine ⟨by cases Reg.ofAddr _ <;> rfl, ?_⟩
        rw [encode_readOf_eq, regCommand, Reg.addr_ofAddr, ← hw]
    next hop =>
      have hop : w.extractLsb' 28 4 = 3 := BitVec.eq_of_toNat_eq hop
      split at h
      case isFalse => cases h
      case isTrue hoperands =>
        obtain ⟨hfid, hval⟩ := hoperands
        cases h
        rw [hop, hfid, hval] at hw
        refine ⟨by cases Reg.ofAddr _ <;> rfl, ?_⟩
        rw [encode_writeOf_eq, regCommand, Reg.addr_ofAddr, ← hw]
    next =>
      split at h
      case isFalse => cases h
      case isTrue hoperands =>
        obtain ⟨hreg, hfid, hval⟩ := hoperands
        obtain ⟨hwf, henc⟩ := encode_ofBareOp h
        rw [hreg, hfid, hval] at hw
        exact ⟨hwf, by rw [henc, bareCommand, ← hw]⟩

/-! ### Decoding and encoding undo each other -/

/-- Decoding an encoded well-formed instruction gives it back (R51 to R62). -/
theorem decode_encode {i : Instr} (h : i.wellFormed = true) : decode (encode i) = some i := by
  rcases Instr.forms i with ⟨m, r, rfl⟩ | ⟨r, rfl⟩ | ⟨f, v, rfl⟩ | ⟨r, rfl⟩ | ⟨r, rfl⟩ | hbare
  · rw [encode_wrOf]
    exact decodeFrame_encode h
  · rw [encode_rdOf, decode, decodeFrame_rdreq, Reg.ofAddr_addr]
  · exact decodeCommand_encode_setf f v
  · cases r <;> decide
  · cases r <;> decide
  · cases i with
    | readAll | writeAll | init | enable | disable | getStatus | clearStatus | clearError => decide
    | _ => cases hbare

/-- A word that decodes has one spelling (R59, R62). -/
theorem encode_of_decode {c : Code} {i : Instr} (h : decode c = some i) : i.wellFormed = true ∧ encode i = c := by
  cases c with
  | frame f => exact encode_of_decodeFrame h
  | command w => exact encode_of_decodeCommand h

/-! ### The rows of the table -/

/-- Every encoded instruction spells its own row (R59, R62). -/
theorem spellsItsRow (i : Instr) : i.row.spelledBy (encode i) = true := by
  cases i with
  | wrCtrl c => exact Laws.SpellsItsRow.wrCtrl c
  | wrTorque c => exact Laws.SpellsItsRow.wrTorque c
  | wrOff c => exact Laws.SpellsItsRow.wrOff c
  | wrBlank c => exact Laws.SpellsItsRow.wrBlank c
  | wrDecay c => exact Laws.SpellsItsRow.wrDecay c
  | wrStall c => exact Laws.SpellsItsRow.wrStall c
  | wrDrive c => exact Laws.SpellsItsRow.wrDrive c
  | wrStatus c => exact Laws.SpellsItsRow.wrStatus c
  | setf f v => exact Laws.SpellsItsRow.setf f v
  | _ => decide

/-- The row that one word alone spells. -/
def Row.only : Code → Row
  | .frame f => .frame f 0xFFFF
  | .command w => .command w 0xFFFFFFFF

theorem eq_of_spelledBy_only {c d : Code} (h : (Row.only c).spelledBy d = true) : d = c := by
  cases c with
  | frame f =>
    cases d with
    | frame g =>
      have hg : g &&& BitVec.allOnes 16 = f := of_decide_eq_true h
      rw [← hg, BitVec.and_allOnes]
    | command w => cases h
  | command w =>
    cases d with
    | frame g => cases h
    | command v =>
      have hv : v &&& BitVec.allOnes 32 = w := of_decide_eq_true h
      rw [← hv, BitVec.and_allOnes]

/-- The row of a W frame: the address, and the reserved bits zeros (R59). -/
theorem row_wrOf (m : Mirror) (r : Reg) : (wrOf m r).row = .frame (Reg.addrBits r) (0xF000 ||| r.reserved) := by
  cases r <;> rfl

/-- The row of an instruction without operands is its one word (R59, R62). -/
theorem row_eq_only {i : Instr} (hframe : ∀ m r, i ≠ wrOf m r) (hsetf : ∀ f v, i ≠ .setf f v) :
    i.wellFormed = true ∧ i.row = Row.only (encode i) := by
  rcases Instr.forms i with ⟨m, r, h⟩ | ⟨r, rfl⟩ | ⟨f, v, h⟩ | ⟨r, rfl⟩ | ⟨r, rfl⟩ | hbare
  · exact absurd h (hframe m r)
  · cases r <;> decide
  · exact absurd h (hsetf f v)
  · cases r <;> decide
  · cases r <;> decide
  · cases i with
    | readAll | writeAll | init | enable | disable | getStatus | clearStatus | clearError => decide
    | _ => cases hbare

/-- A frame that spells the row of a register's W frame is one (R59). -/
theorem decodeFrame_of_row {f : Frame} {r : Reg} (h : f &&& (0xF000 ||| r.reserved) = Reg.addrBits r) (m : Mirror) :
    decodeFrame f = some (wrOf (m.storeReply r f) r) := by
  have htop : ∀ i, 12 ≤ i → i < 16 → f.getLsbD i = (Reg.addrBits r).getLsbD i := by
    intro i hlo hhi
    have hmask : (0xF000 : Frame).getLsbD i = true := by interval_cases i <;> rfl
    rw [← h, BitVec.getLsbD_and, BitVec.getLsbD_or, hmask, Bool.true_or, Bool.and_true]
  have hw : Frame.isWrite f = true := by
    rw [Frame.isWrite, htop 15 (by decide) (by decide)]
    cases r <;> rfl
  have ha : Frame.address f = r.addr := by
    have haddr : (Reg.addrBits r).extractLsb' 12 3 = r.addr := by cases r <;> rfl
    rw [← haddr, Frame.address]
    apply BitVec.eq_of_getLsbD_eq
    intro i hi
    rw [BitVec.getLsbD_extractLsb', BitVec.getLsbD_extractLsb', htop _ (by omega) (by omega)]
  have hreserved : f &&& r.reserved = 0 :=
    calc f &&& r.reserved
        = f &&& (0xF000 ||| r.reserved) &&& r.reserved := by
          rw [BitVec.and_assoc, show (0xF000 ||| r.reserved) &&& r.reserved = r.reserved by cases r <;> decide]
      _ = 0 := by
          rw [h]
          cases r <;> decide
  rw [decodeFrame_of_isWrite hw ha m, if_pos hreserved]

/-- A word that spells SETF's row is a SETF (R62). -/
theorem decodeCommand_of_setf_row {w : CommandWord} (h : w &&& 0xFFE00000 = 0x10000000) :
    ∃ f v, decodeCommand w = some (.setf f v) := by
  have hbit : ∀ i, 21 ≤ i → i < 32 → w.getLsbD i = (0x10000000 : CommandWord).getLsbD i := by
    intro i hlo hhi
    have hmask : (0xFFE00000 : CommandWord).getLsbD i = true := by interval_cases i <;> rfl
    rw [← h, BitVec.getLsbD_and, hmask, Bool.and_true]
  have hfield : ∀ lo n, 21 ≤ lo → lo + n ≤ 32 → w.extractLsb' lo n = (0x10000000 : CommandWord).extractLsb' lo n := by
    intro lo n hlo hhi
    apply BitVec.eq_of_getLsbD_eq
    intro i hi
    rw [BitVec.getLsbD_extractLsb', BitVec.getLsbD_extractLsb', hbit _ (by omega) (by omega)]
  have hunused : w &&& 0x08E00000 = 0 :=
    (unused_eq_zero_iff w).2 ⟨hbit 27 (by decide) (by decide), hfield 21 3 (by decide) (by decide)⟩
  exact ⟨_, _, decodeCommand_setf hunused (hfield 28 4 (by decide) (by decide)) (hfield 24 3 (by decide) (by decide))⟩

/-- A word that spells an instruction's row decodes to an instruction of that row (R59, R62). -/
theorem decode_of_spelledBy {c : Code} {i : Instr} (h : i.row.spelledBy c = true) :
    ∃ j, decode c = some j ∧ j.row = i.row := by
  by_cases hframe : ∃ m r, i = wrOf m r
  · obtain ⟨m, r, rfl⟩ := hframe
    rw [row_wrOf] at h ⊢
    cases c with
    | command w => cases h
    | frame f => exact ⟨_, decodeFrame_of_row (of_decide_eq_true h) m, row_wrOf _ r⟩
  by_cases hsetf : ∃ f v, i = .setf f v
  · obtain ⟨f, v, rfl⟩ := hsetf
    cases c with
    | frame f => cases h
    | command w =>
      obtain ⟨g, u, hd⟩ := decodeCommand_of_setf_row (of_decide_eq_true h)
      exact ⟨_, hd, rfl⟩
  · push Not at hframe hsetf
    obtain ⟨hwf, hrow⟩ := row_eq_only hframe hsetf
    rw [hrow] at h
    rw [eq_of_spelledBy_only h]
    exact ⟨i, decode_encode hwf, rfl⟩

/-! ### Illegal command words -/

theorem ofBareOp_eq_none_iff (op : Nat) : Instr.ofBareOp op = none ↔ op < 4 ∨ 0xC ≤ op := by
  constructor
  · intro h
    by_contra hrange
    have hlo : 4 ≤ op := by omega
    have hhi : op < 0xC := by omega
    interval_cases op <;> cases h
  · intro h
    unfold Instr.ofBareOp
    split
    case h_9 => rfl
    all_goals omega

/-- The words that spell no command (R65). -/
theorem decodeCommand_eq_none_iff (w : CommandWord) :
    decodeCommand w = none ↔
      ((w.extractLsb' 28 4).toNat = 0 ∨ 0xC ≤ (w.extractLsb' 28 4).toNat) ∨ w.getLsbD 27 = true ∨
      w.extractLsb' 21 3 ≠ 0 ∨
      (w.extractLsb' 24 3 ≠ 0 ∧ (w.extractLsb' 28 4).toNat ≠ 2 ∧ (w.extractLsb' 28 4).toNat ≠ 3) ∨
      ((w.extractLsb' 16 5 ≠ 0 ∨ w.extractLsb' 0 16 ≠ 0) ∧ (w.extractLsb' 28 4).toNat ≠ 1) := by
  unfold decodeCommand
  simp only
  generalize (w.extractLsb' 28 4).toNat = op
  split
  case isFalse hunused =>
    have hplace : w.getLsbD 27 = true ∨ w.extractLsb' 21 3 ≠ 0 := by
      rw [unused_eq_zero_iff] at hunused
      by_contra h
      push Not at h
      exact hunused ⟨Bool.eq_false_of_not_eq_true h.1, h.2⟩
    tauto
  case isTrue hunused =>
    obtain ⟨h27, h21⟩ := (unused_eq_zero_iff w).1 hunused
    simp only [h27, h21, ne_eq, not_true_eq_false, Bool.false_eq_true, false_or]
    split
    · simp
    · simp
      tauto
    · simp
      tauto
    next h1 h2 h3 =>
      have hne : op ≠ 1 ∧ op ≠ 2 ∧ op ≠ 3 := ⟨h1, h2, h3⟩
      have hrange : op < 4 ↔ op = 0 := by omega
      simp only [ite_eq_right_iff, ofBareOp_eq_none_iff, hrange]
      tauto

end Sys2Proof.Machine

open Sys2Proof Sys2Proof.Machine

/-- Settles O1: by the form of the instruction, a W frame by the codec's round trip, a command by its fields. -/
theorem decodeOfEncode : Obligations.DecodeOfEncode := by
  unfold Obligations.DecodeOfEncode
  exact fun _ => decode_encode

/-- Settles O2: a frame is its address over its payload, a command word its four fields, and nothing else is left in it. -/
theorem encodeOfDecode : Obligations.EncodeOfDecode := by
  unfold Obligations.EncodeOfDecode
  exact fun _ _ => encode_of_decode

/-- Settles O3: a word that decodes is the encoded word, which spells its row; and a row is its address bits and zeros, SETF's
fields, or one word. -/
theorem decodedWordsAreTheTableRows : Obligations.DecodedWordsAreTheTableRows := by
  unfold Obligations.DecodedWordsAreTheTableRows
  refine fun c => ⟨fun i h => ?_, fun i h => decode_of_spelledBy h⟩
  obtain ⟨-, henc⟩ := encode_of_decode h
  exact henc ▸ spellsItsRow i

/-- Settles O4: the words are computed. -/
theorem sampleWordsDecode : Obligations.SampleWordsDecode := by
  unfold Obligations.SampleWordsDecode
  decide

/-- Settles O5: operation code by operation code. -/
theorem illegalCommandWords : Obligations.IllegalCommandWords := by
  unfold Obligations.IllegalCommandWords
  exact decodeCommand_eq_none_iff
end

section
/-! SUPPORT. The step and the command port (spec/10_state.md R20, spec/60_exceptions.md R155), the two kinds of frame on the
link (spec/20_memory.md R36, R37), and the phases that fetch no word. -/

namespace Sys2Proof.Machine

/-! ### The port -/

/-- A step whose word decodes is the execution of what it decodes to. -/
theorem step_of_fetch {s : State} {c : Code} {i : Instr} (hf : fetch s = some c) (hd : decode c = some i) :
    step s = exec i s := by
  simp only [step, hf, hd]

/-- While busy a command is not accepted, and it leaves the state (R20, U9). -/
theorem exec_command_busy {i : Instr} {s : State} (hc : i.isCommand = true) (hbusy : s.phase ≠ .idle) :
    exec i s = .next s := by
  cases i with
  | wrCtrl _ | wrTorque _ | wrOff _ | wrBlank _ | wrDecay _ | wrStall _ | wrDrive _ | wrStatus _ => cases hc
  | rdCtrl | rdTorque | rdOff | rdBlank | rdDecay | rdStall | rdDrive | rdStatus => cases hc
  | setf f v => exact exec_setf_busy f v hbusy
  | init => exact accept_busy (fun s => startBulk .init { s with mirror := Mirror.defaults }) hbusy
  | enable => exact accept_busy (fun s => startWrite .enable .ctrl { s with mirror := s.mirror.setEnbl 1 }) hbusy
  | disable => exact accept_busy (fun s => startWrite .disable .ctrl { s with mirror := s.mirror.setEnbl 0 }) hbusy
  | clearStatus =>
    exact accept_busy (fun s => startStatusWrite .clearStatus { s with mirror := s.mirror.clearStatus }) hbusy
  | clearError => exact accept_busy (fun s => done .ok (returnFromError s)) hbusy
  | _ => exact accept_busy _ hbusy

/-- The acceptance of a command always has a next state. -/
theorem accept_answers (start : State → State) (s : State) : ∃ t, accept start s = .next t := by
  by_cases hp : s.phase = .idle
  · exact ⟨_, accept_idle start hp⟩
  · exact ⟨_, accept_busy start hp⟩

/-- Every instruction always has a next state: the machine has no fault and refuses no instruction (R155). -/
theorem exec_answers (i : Instr) (s : State) : ∃ t, exec i s = .next t := by
  cases i with
  | wrCtrl _ | wrTorque _ | wrOff _ | wrBlank _ | wrDecay _ | wrStall _ | wrDrive _ | wrStatus _ => exact ⟨_, rfl⟩
  | rdCtrl | rdTorque | rdOff | rdBlank | rdDecay | rdStall | rdDrive | rdStatus => exact ⟨_, rfl⟩
  | setf f v => exact accept_answers (fun s => done .ok { s with mirror := s.mirror.set f v }) s
  | init => exact accept_answers (fun s => startBulk .init { s with mirror := Mirror.defaults }) s
  | enable => exact accept_answers (fun s => startWrite .enable .ctrl { s with mirror := s.mirror.setEnbl 1 }) s
  | disable => exact accept_answers (fun s => startWrite .disable .ctrl { s with mirror := s.mirror.setEnbl 0 }) s
  | clearStatus =>
    exact accept_answers (fun s => startStatusWrite .clearStatus { s with mirror := s.mirror.clearStatus }) s
  | clearError => exact accept_answers (fun s => done .ok (returnFromError s)) s
  | _ => exact accept_answers _ s

/-- A step in IDLE with a word that spells no command is refused by its name (R65, D14). -/
theorem step_illegal {s : State} (hp : s.phase = .idle) (hv : s.cmdValid = true) (hd : decodeCommand s.cw = none) :
    step s = .refused (.illegalCommandWord s.cw) := by
  rw [step_command hp hv, hd]

/-! ### Frames -/

/-- An exchange that returns, with the select as the Transport's answer found it: de-asserted (R33). -/
theorem exchange_of_answer {s s1 : State} {q : Frame} (out : Frame) (cont : Frame → State → State)
    (hs : s.select = false) (h : s.takeAnswer = some (q, s1)) :
    exchange out cont s = cont q { s1 with history := s.history ++ exchangeEvents out q } := by
  rw [exchange_answered out cont hs h, ← (takeAnswer_select h).trans hs]

section
variable {s s1 : State} {q : Frame}

theorem sendWrite_wTransmit (f : Frame) (hs : s.select = false) (h : s.takeAnswer = some (q, s1))
    (hp : s.phase = .wTransmit) :
    sendWrite f s = { s1 with phase := .wVerify, history := s.history ++ exchangeEvents f q } := by
  have hp1 : s1.phase = .wTransmit := (takeAnswer_phase h).trans hp
  rw [sendWrite, exchange_of_answer _ _ hs h]
  simp only [hp1]
  rfl

theorem sendWrite_sTransmit (f : Frame) (hs : s.select = false) (h : s.takeAnswer = some (q, s1))
    (hp : s.phase = .sTransmit) :
    sendWrite f s = finish .ok { s1 with history := s.history ++ exchangeEvents f q } := by
  have hp1 : s1.phase = .sTransmit := (takeAnswer_phase h).trans hp
  rw [sendWrite, exchange_of_answer _ _ hs h]
  simp only [hp1]

/-- In a phase that sends no W frame the exchange is all (entry 1). -/
theorem sendWrite_elsewhere (f : Frame) (hs : s.select = false) (h : s.takeAnswer = some (q, s1))
    (hw : s.phase ≠ .wTransmit) (ht : s.phase ≠ .sTransmit) :
    sendWrite f s = { s1 with history := s.history ++ exchangeEvents f q } := by
  rw [← takeAnswer_phase h] at hw ht
  rw [sendWrite, exchange_of_answer _ _ hs h]
  dsimp only
  split
  · contradiction
  · contradiction
  · rfl

theorem sendRead_wVerify (r : Reg) (hs : s.select = false) (h : s.takeAnswer = some (q, s1)) (hp : s.phase = .wVerify) :
    sendRead r s = { s1 with phase := .wCompare, rbf := q, history := s.history ++ exchangeEvents (rdreq r.addr) q } := by
  have hp1 : s1.phase = .wVerify := (takeAnswer_phase h).trans hp
  rw [sendRead, exchange_of_answer _ _ hs h]
  simp only [hp1]
  rfl

theorem sendRead_rExchange (r : Reg) (hs : s.select = false) (h : s.takeAnswer = some (q, s1))
    (hp : s.phase = .rExchange) :
    sendRead r s = { s1 with phase := .rDecode, rbf := q, history := s.history ++ exchangeEvents (rdreq r.addr) q } := by
  have hp1 : s1.phase = .rExchange := (takeAnswer_phase h).trans hp
  rw [sendRead, exchange_of_answer _ _ hs h]
  simp only [hp1]
  rfl

/-- In a phase that sends no read request the exchange and `rbf` are all (entry 1). -/
theorem sendRead_elsewhere (r : Reg) (hs : s.select = false) (h : s.takeAnswer = some (q, s1))
    (hv : s.phase ≠ .wVerify) (hx : s.phase ≠ .rExchange) :
    sendRead r s = { s1 with rbf := q, history := s.history ++ exchangeEvents (rdreq r.addr) q } := by
  rw [← takeAnswer_phase h] at hv hx
  rw [sendRead, exchange_of_answer _ _ hs h]
  dsimp only
  split
  · contradiction
  · contradiction
  · rfl

end

/-! ### Phases -/

theorem backoffPhase_of_free {s : State} (h : s.delayHangsAfter = none) :
    backoffPhase s = { s with
      phase := .wTransmit, att := s.att + 1, history := s.history ++ [.delay s.att.toNat] } := by
  simp [backoffPhase, State.takeDelay, h, State.goto, State.record]

theorem backoffPhase_of_counted {s : State} {n : Nat} (h : s.delayHangsAfter = some (n + 1)) :
    backoffPhase s = { s with
      phase := .wTransmit, att := s.att + 1, delayHangsAfter := some n,
      history := s.history ++ [.delay s.att.toNat] } := by
  simp [backoffPhase, State.takeDelay, h, State.goto, State.record]

end Sys2Proof.Machine

open Sys2Proof Sys2Proof.Machine

/-- Settles O13: in each such phase the word is fetched, and in a read phase it always decodes. -/
theorem stepRunsDecodedInstruction : Obligations.StepRunsDecodedInstruction := by
  unfold Obligations.StepRunsDecodedInstruction
  refine ⟨fun s i hp hv hd => ?_, fun s i hp hflag hd => ?_, fun s hp => ?_⟩
  · exact step_of_fetch (by simp [fetch, hp, hv]) hd
  · have hw : Frame.isWrite s.txf = true := by rw [Frame.isWrite, hflag]; rfl
    exact step_of_fetch (by rcases hp with hp | hp <;> simp [fetch, hp, hw]) hd
  · rw [step_request hp, exec_rdOf]

/-- Settles O14: the step of IDLE with a word that decodes to nothing. -/
theorem illegalWordRefused : Obligations.IllegalWordRefused := by
  unfold Obligations.IllegalWordRefused
  exact fun s hp hv hd => step_illegal hp hv hd

/-- Settles O15: the two cases of the host's queue. -/
theorem idlePortTurn : Obligations.IdlePortTurn := by
  unfold Obligations.IdlePortTurn
  intro s hp hv
  rw [step_hostTurn hp hv]
  exact ⟨fun hq => by simp only [hostTurn, hq], fun w rest hq => by simp only [hostTurn, hq]⟩

/-- Settles O17: every command is an acceptance, which only IDLE makes. -/
theorem commandWhileBusyChangesNothing : Obligations.CommandWhileBusyChangesNothing := by
  unfold Obligations.CommandWhileBusyChangesNothing
  exact fun _ _ hc hbusy => exec_command_busy hc hbusy

/-- Settles O33: a wait that ends leaves one fewer, or leaves the service as it is where every wait ends. -/
theorem backoffStep : Obligations.BackoffStep := by
  unfold Obligations.BackoffStep
  intro s hp
  rw [step_wBackoff hp]
  exact ⟨fun h => by rw [backoffPhase_of_free h], fun n h => by rw [backoffPhase_of_counted h]⟩

/-- Settles O34: the two encoding phases are their one operation. -/
theorem encodeSteps : Obligations.EncodeSteps := by
  unfold Obligations.EncodeSteps
  exact fun s => ⟨fun hp => step_wEncode hp, fun hp => step_sEncode hp⟩

/-- Settles O35: `finish` by the kind of command, B_NEXT by the count of registers. -/
theorem sequencerLaw : Obligations.SequencerLaw := by
  unfold Obligations.SequencerLaw
  refine ⟨fun res s => ⟨fun hop => ?_, fun hread hwrite hinit => ?_⟩, fun s hp => ⟨fun hseq => ?_, fun hseq => ?_⟩⟩
  · exact finish_of_bulk res ((Op.isBulk_iff s.op).2 hop)
  · have hsingle : s.op.isBulk = false := by
      rw [← Bool.not_eq_true, Op.isBulk_iff]
      tauto
    exact finish_of_single res hsingle
  · rw [step_bNext hp, bulkNextPhase_of_eight hseq]
    rfl
  · rw [step_bNext hp, bulkNextPhase_of_lt hseq, BitVec.ofNat_toNat]

/-- Settles O36: the step of R_DECODE is its one operation. -/
theorem readDecodeStep : Obligations.ReadDecodeStep := by
  unfold Obligations.ReadDecodeStep
  exact fun s hp => step_rDecode hp

/-- Settles O49: the values are those of the definition of reset. -/
theorem resetValues : Obligations.ResetValues := by
  unfold Obligations.ResetValues
  exact ⟨fun f => Mirror.get_ofFields _ f, rfl, rfl, rfl, rfl, rfl⟩

/-- Settles O46: a busy controller answers, an idle one runs a command, which answers, or refuses a word that spells none. -/
theorem stepAlwaysAnswers : Obligations.StepAlwaysAnswers := by
  unfold Obligations.StepAlwaysAnswers
  intro s
  by_cases hp : s.phase = .idle
  · cases hv : s.cmdValid with
    | false => exact .inl ⟨_, step_hostTurn hp hv⟩
    | true =>
      cases hd : decodeCommand s.cw with
      | none => exact .inr ⟨hp, rfl, hd, step_illegal hp hv hd⟩
      | some i =>
        rw [step_command hp hv, hd]
        exact .inl (exec_answers i s)
  · exact .inl (step_answers_of_busy hp)

/-- Settles O29: a W frame is sent as its register's encoding, and its phase decides what follows the exchange. -/
theorem writeFrameIsSent : Obligations.WriteFrameIsSent := by
  unfold Obligations.WriteFrameIsSent
  intro m r s s1 q hs h
  have hop : s1.op = s.op := by rw [takeAnswer_frame h]
  refine ⟨_, exec_wrOf m r s, fun hp => ?_, fun hp hb => ?_, fun hp hb => ?_, fun hw ht => ?_⟩
  · exact sendWrite_wTransmit _ hs h hp
  · rw [sendWrite_sTransmit _ hs h hp, finish_of_bulk .ok (hop ▸ hb)]
    simp
  · rw [sendWrite_sTransmit _ hs h hp, finish_of_single .ok (hop ▸ hb)]
  · exact sendWrite_elsewhere _ hs h hw ht

/-- Settles O30: a read request puts its reply in `rbf`, and its phase decides what follows the exchange. -/
theorem readFrameIsSent : Obligations.ReadFrameIsSent := by
  unfold Obligations.ReadFrameIsSent
  intro r s s1 q hs h
  exact ⟨_, exec_rdOf r s, sendRead_wVerify r hs h, sendRead_rExchange r hs h, sendRead_elsewhere r hs h⟩
end

section
/-! SUPPORT. What one step can do: the mirror it writes (spec/10_state.md R17), the sequencing registers it leaves in IDLE
(R19, entry 22), the events it adds (spec/20_memory.md R33, R41), the frames it sends (spec/30_encoding.md R59), and the
steps that never end (spec/20_memory.md R46). -/

namespace Sys2Proof.Machine

/-! ### The mirror -/

theorem verifiedWriteOf_mirror {m m' : Mirror} {i : Instr} {op : Op} {r : Reg}
    (h : verifiedWriteOf m i = some (op, r, m')) :
    m' = m ∨ (i = .enable ∧ m' = m.set .ctrlEnbl 1) ∨ (i = .disable ∧ m' = m.set .ctrlEnbl 0) := by
  unfold verifiedWriteOf at h
  split at h <;> cases h <;> simp

theorem statusWriteOf_mirror {m m' : Mirror} {i : Instr} {op : Op} (h : statusWriteOf m i = some (op, m')) :
    m' = m ∨ (i = .clearStatus ∧ m' = m.clearStatus) := by
  unfold statusWriteOf at h
  split at h <;> cases h
  · exact .inl rfl
  · exact .inr ⟨rfl, rfl⟩

theorem bulkWriteOf_mirror {m m' : Mirror} {i : Instr} {op : Op} (h : bulkWriteOf m i = some (op, m')) :
    m' = m ∨ (i = .init ∧ m' = Mirror.defaults) := by
  unfold bulkWriteOf at h
  split at h <;> cases h <;> simp

/-- The five commands whose acceptance writes a cell (R17, R145, R146, R148). -/
theorem exec_command_mirror {i : Instr} {s t : State} (hc : i.isCommand = true) (hp : s.phase = .idle)
    (h : exec i s = .next t) :
    t.mirror = s.mirror ∨ (∃ f v, i = .setf f v ∧ t.mirror = s.mirror.set f v) ∨
    (i = .init ∧ t.mirror = Mirror.defaults) ∨ (i = .enable ∧ t.mirror = s.mirror.set .ctrlEnbl 1) ∨
    (i = .disable ∧ t.mirror = s.mirror.set .ctrlEnbl 0) ∨ (i = .clearStatus ∧ t.mirror = s.mirror.clearStatus) := by
  rcases exec_command_cases hc hp h with ⟨f, v, hi, rfl⟩ | ⟨-, rfl⟩ | ⟨_, _, -, rfl⟩ | ⟨_, _, m, hw, rfl⟩ |
    ⟨_, m, hw, rfl⟩ | ⟨-, rfl⟩ | ⟨_, m, hw, rfl⟩
  · exact .inr (.inl ⟨f, v, hi, rfl⟩)
  · exact .inl rfl
  · exact .inl rfl
  · have hm := verifiedWriteOf_mirror hw
    tauto
  · have hm := statusWriteOf_mirror hw
    tauto
  · exact .inl rfl
  · have hm := bulkWriteOf_mirror hw
    tauto

/-! ### The sequencing registers in IDLE -/

/-- The sequencing registers are as they were. -/
def KeepsSequencing (s t : State) : Prop :=
  t.op = s.op ∧ t.cur = s.cur ∧ t.att = s.att ∧ t.txf = s.txf ∧ t.rbf = s.rbf ∧ t.seq = s.seq ∧ t.acc = s.acc

theorem KeepsSequencing.refl (s : State) : KeepsSequencing s s := ⟨rfl, rfl, rfl, rfl, rfl, rfl, rfl⟩

/-- `finish` goes to IDLE for a single command, whose registers it leaves (R140, entry 22). -/
theorem KeepsSequencing.finish {res : Result} {s : State} (h : (finish res s).phase = .idle) :
    KeepsSequencing s (finish res s) := by
  rcases finish_cases res s with ⟨-, he⟩ | ⟨-, he⟩
  · rw [he] at h
    cases h
  · rw [he]
    exact .refl s

theorem KeepsSequencing.sendWrite {f : Frame} {s : State} (hbusy : s.phase ≠ .idle)
    (h : (sendWrite f s).phase = .idle) : KeepsSequencing s (sendWrite f s) := by
  rcases sendWrite_cases f s with ⟨q, tr, fd, ⟨-, he⟩ | ⟨-, he⟩ | ⟨-, -, he⟩⟩ | ⟨-, he⟩ <;> rw [he] at h ⊢
  · cases h
  · exact KeepsSequencing.finish h
  · exact absurd h hbusy
  · rw [State.assertSelect_phase] at h
    exact absurd h hbusy

/-- A read request never ends in IDLE from a busy phase (R105, R123). -/
theorem sendRead_phase_ne_idle (r : Reg) {s : State} (hbusy : s.phase ≠ .idle) : (sendRead r s).phase ≠ .idle := by
  rcases sendRead_cases r s with ⟨_, _, _, ⟨-, he⟩ | ⟨-, he⟩ | ⟨-, -, he⟩⟩ | ⟨-, he⟩ <;> rw [he]
  · exact nofun
  · exact nofun
  · exact hbusy
  · rw [State.assertSelect_phase]
    exact hbusy

theorem backoffPhase_phase_ne_idle {s : State} (hp : s.phase = .wBackoff) : (backoffPhase s).phase ≠ .idle := by
  rcases backoffPhase_cases s with ⟨_, he⟩ | ⟨-, he⟩ <;> rw [he]
  · exact nofun
  · rw [hp]
    exact nofun

/-- B_NEXT completes, or starts a register, which is no way to IDLE (R140). -/
theorem bulkNextPhase_cases (s : State) :
    bulkNextPhase s = done s.bulkResult s ∨
    ∃ p cur seq, p ≠ .idle ∧ bulkNextPhase s = { s with phase := p, cur := cur, seq := seq } := by
  unfold bulkNextPhase
  dsimp only
  split_ifs
  · exact .inl rfl
  · exact .inr ⟨.rExchange, _, _, nofun, rfl⟩
  · exact .inr ⟨.sEncode, _, _, nofun, rfl⟩
  · exact .inr ⟨.wEncode, _, _, nofun, rfl⟩

/-- The compare ends the sub-operation, with `err` set if it failed, or goes to a backoff (R124). -/
theorem comparePhase_cases (s : State) :
    comparePhase s = finish .ok s ∨ comparePhase s = State.goto .wBackoff s ∨
    comparePhase s = finish .fail (State.setErr true s) := by
  unfold comparePhase
  split_ifs
  · exact .inl rfl
  · exact .inr (.inl rfl)
  · exact .inr (.inr rfl)

/-- A step that ends in IDLE leaves the sequencing registers (entry 22). -/
theorem KeepsSequencing.of_step {s t : State} (h : step s = .next t) (ht : t.phase = .idle) : KeepsSequencing s t := by
  rcases step_cases h with ⟨-, -, rfl⟩ | ⟨hp, -, i, -, hc, he⟩ | ⟨-, rfl⟩ | ⟨hp, rfl⟩ | ⟨hp, rfl⟩ | ⟨-, rfl⟩ | ⟨hp, rfl⟩ |
    ⟨-, rfl⟩ | ⟨hp, rfl⟩ | ⟨hp, rfl⟩ | ⟨-, rfl⟩ | ⟨-, rfl⟩
  · unfold hostTurn
    split <;> exact .refl s
  · rcases exec_command_cases hc hp he with ⟨_, _, -, rfl⟩ | ⟨-, rfl⟩ | ⟨_, _, -, rfl⟩ | ⟨_, _, _, -, rfl⟩ |
      ⟨_, _, -, rfl⟩ | ⟨-, rfl⟩ | ⟨_, _, -, rfl⟩
    · exact .refl s
    · exact .refl s
    all_goals cases ht
  · cases ht
  · exact .sendWrite (by rw [hp]; exact nofun) ht
  · exact absurd ht (sendRead_phase_ne_idle _ (by rw [hp]; exact nofun))
  · rcases comparePhase_cases s with hcmp | hcmp | hcmp <;> rw [hcmp] at ht ⊢
    · exact .finish ht
    · cases ht
    · exact KeepsSequencing.finish (s := State.setErr true s) ht
  · exact absurd ht (backoffPhase_phase_ne_idle hp)
  · cases ht
  · exact .sendWrite (by rw [hp]; exact nofun) ht
  · exact absurd ht (sendRead_phase_ne_idle _ (by rw [hp]; exact nofun))
  · exact KeepsSequencing.finish (s := { s with mirror := s.mirror.storeReply (Reg.ofAddr s.cur) s.rbf }) ht
  · rcases bulkNextPhase_cases s with hnext | ⟨p, _, _, hne, hnext⟩ <;> rw [hnext] at ht ⊢
    · exact .refl s
    · exact absurd ht hne

/-! ### Events -/

/-- What one step from a de-asserted select can add to the history, and what that says of the select and of the end of a
command (R21, R33). -/
def AddsEvents (s t : State) : Prop :=
  ∃ es, t.history = s.history ++ es ∧
    (es = [] ∨ (∃ k, es = [.delay k]) ∨ (∃ out q, es = exchangeEvents out q) ∨ (∃ res, es = [.done res]) ∨
      (∃ out q res, es = exchangeEvents out q ++ [.done res]) ∨ es = [.cs true]) ∧
    (t.select = true ↔ es = [.cs true]) ∧
    (s.phase ≠ .idle → (t.phase = .idle ↔ ∃ res, .done res ∈ es))

section
variable {s t : State}

theorem AddsEvents.nothing (hh : t.history = s.history) (hsel : t.select = false)
    (hp : s.phase ≠ .idle → t.phase ≠ .idle) : AddsEvents s t :=
  ⟨[], by simp [hh], by simp, by simp [hsel], fun hs => by simp [hp hs]⟩

theorem AddsEvents.delay {k : Nat} (hh : t.history = s.history ++ [.delay k]) (hsel : t.select = false)
    (hp : t.phase ≠ .idle) : AddsEvents s t :=
  ⟨[.delay k], hh, by simp, by simp [hsel], fun _ => by simp [hp]⟩

theorem AddsEvents.exchange {out q : Frame} (hh : t.history = s.history ++ exchangeEvents out q)
    (hsel : t.select = false) (hp : t.phase ≠ .idle) : AddsEvents s t :=
  ⟨exchangeEvents out q, hh, .inr (.inr (.inl ⟨out, q, rfl⟩)), by simp [hsel, exchangeEvents],
    fun _ => by simp [hp, exchangeEvents]⟩

theorem AddsEvents.done {res : Result} (hh : t.history = s.history ++ [.done res]) (hsel : t.select = false)
    (hp : t.phase = .idle) : AddsEvents s t :=
  ⟨[.done res], hh, by simp, by simp [hsel], fun _ => by simp [hp]⟩

theorem AddsEvents.exchangeDone {out q : Frame} {res : Result}
    (hh : t.history = s.history ++ (exchangeEvents out q ++ [.done res])) (hsel : t.select = false)
    (hp : t.phase = .idle) : AddsEvents s t :=
  ⟨exchangeEvents out q ++ [.done res], hh, .inr (.inr (.inr (.inr (.inl ⟨out, q, res, rfl⟩)))),
    by simp [hsel, exchangeEvents], fun _ => by simp [hp]⟩

theorem AddsEvents.hang (hh : t.history = s.history ++ [.cs true]) (hsel : t.select = true) (hp : t.phase ≠ .idle) :
    AddsEvents s t :=
  ⟨[.cs true], hh, by simp, by simp [hsel], fun _ => by simp [hp]⟩

/-- The three framed events of an exchange from a de-asserted select (R33). -/
theorem history_of_exchange (hs : s.select = false) (out q : Frame) :
    s.assertSelect.history ++ [.xchg out q, .cs false] = s.history ++ exchangeEvents out q := by
  simp [assertSelect_history, hs, exchangeEvents]

theorem AddsEvents.assertSelect (hs : s.select = false) (hbusy : s.phase ≠ .idle) : AddsEvents s s.assertSelect :=
  .hang (by simp [assertSelect_history, hs]) (State.assertSelect_select s) (by rwa [State.assertSelect_phase])

/-- The end of a sub-operation, from a state that differs from the step's in no event and is not selected. -/
theorem AddsEvents.finish (res : Result) (hh : t.history = s.history) (hsel : t.select = false) :
    AddsEvents s (finish res t) := by
  rcases finish_cases res t with ⟨-, he⟩ | ⟨-, he⟩ <;> rw [he]
  · exact .nothing hh hsel fun _ => nofun
  · exact .done (congrArg (· ++ [Event.done res]) hh) hsel rfl

theorem AddsEvents.sendWrite (f : Frame) (hs : s.select = false) (hbusy : s.phase ≠ .idle) :
    AddsEvents s (sendWrite f s) := by
  rcases sendWrite_cases f s with ⟨q, tr, fd, ⟨-, he⟩ | ⟨-, he⟩ | ⟨-, -, he⟩⟩ | ⟨-, he⟩ <;> rw [he]
  · exact .exchange (history_of_exchange hs f q) rfl nofun
  · rw [history_of_exchange hs f q]
    rcases finish_cases .ok { s with
      select := false, transport := tr, freeDraws := fd, history := s.history ++ exchangeEvents f q } with
      ⟨-, hf⟩ | ⟨-, hf⟩ <;> rw [hf]
    · exact .exchange (out := f) (q := q) rfl rfl nofun
    · exact .exchangeDone (out := f) (q := q) (res := .ok) (List.append_assoc _ _ _) rfl rfl
  · exact .exchange (history_of_exchange hs f q) rfl hbusy
  · exact .assertSelect hs hbusy

theorem AddsEvents.sendRead (r : Reg) (hs : s.select = false) (hbusy : s.phase ≠ .idle) :
    AddsEvents s (sendRead r s) := by
  rcases sendRead_cases r s with ⟨q, _, _, ⟨-, he⟩ | ⟨-, he⟩ | ⟨-, -, he⟩⟩ | ⟨-, he⟩ <;> rw [he]
  · exact .exchange (history_of_exchange hs (rdreq r.addr) q) rfl nofun
  · exact .exchange (history_of_exchange hs (rdreq r.addr) q) rfl nofun
  · exact .exchange (history_of_exchange hs (rdreq r.addr) q) rfl hbusy
  · exact .assertSelect hs hbusy

theorem AddsEvents.exec_command {i : Instr} (hs : s.select = false) (hc : i.isCommand = true) (hp : s.phase = .idle)
    (he : exec i s = .next t) : AddsEvents s t := by
  rcases exec_command_cases hc hp he with ⟨_, _, -, rfl⟩ | ⟨-, rfl⟩ | ⟨_, _, -, rfl⟩ | ⟨_, _, _, -, rfl⟩ |
    ⟨_, _, -, rfl⟩ | ⟨-, rfl⟩ | ⟨_, _, -, rfl⟩
  · exact .done (res := .ok) rfl hs rfl
  · exact .done (res := .ok) rfl hs rfl
  all_goals exact .nothing rfl hs fun _ => nofun

/-- The step from a de-asserted select, phase by phase. -/
theorem AddsEvents.of_step (hs : s.select = false) (h : step s = .next t) : AddsEvents s t := by
  rcases step_cases h with ⟨hp, -, rfl⟩ | ⟨hp, -, i, -, hc, he⟩ | ⟨-, rfl⟩ | ⟨hp, rfl⟩ | ⟨hp, rfl⟩ | ⟨-, rfl⟩ | ⟨hp, rfl⟩ |
    ⟨-, rfl⟩ | ⟨hp, rfl⟩ | ⟨hp, rfl⟩ | ⟨-, rfl⟩ | ⟨-, rfl⟩
  · unfold hostTurn
    split <;> exact .nothing rfl hs fun hbusy => absurd hp hbusy
  · exact .exec_command hs hc hp he
  · exact .nothing rfl hs fun _ => nofun
  · exact .sendWrite _ hs (by rw [hp]; exact nofun)
  · exact .sendRead _ hs (by rw [hp]; exact nofun)
  · rcases comparePhase_cases s with hcmp | hcmp | hcmp <;> rw [hcmp]
    · exact .finish .ok rfl hs
    · exact .nothing rfl hs fun _ => nofun
    · exact .finish .fail rfl hs
  · rcases backoffPhase_cases s with ⟨_, he⟩ | ⟨-, he⟩ <;> rw [he]
    · exact .delay rfl hs nofun
    · exact .nothing rfl hs id
  · exact .nothing rfl hs fun _ => nofun
  · exact .sendWrite _ hs (by rw [hp]; exact nofun)
  · exact .sendRead _ hs (by rw [hp]; exact nofun)
  · exact .finish .ok rfl hs
  · rcases bulkNextPhase_cases s with hnext | ⟨p, _, _, hne, hnext⟩ <;> rw [hnext]
    · exact .done rfl hs rfl
    · exact .nothing rfl hs fun _ => hne

end

/-! ### The frames sent -/

section
variable {out q : Frame}

theorem xchg_mem_finish {res : Result} {s : State} :
    .xchg out q ∈ (finish res s).history ↔ .xchg out q ∈ s.history := by
  rcases finish_cases res s with ⟨-, he⟩ | ⟨-, he⟩ <;> simp [he]

theorem xchg_mem_assertSelect {s : State} : .xchg out q ∈ s.assertSelect.history ↔ .xchg out q ∈ s.history := by
  rw [assertSelect_history]
  split <;> simp

/-- An exchange adds its own frame. -/
theorem xchg_mem_exchanged {f reply : Frame} {s : State}
    (h : .xchg out q ∈ s.assertSelect.history ++ [.xchg f reply, .cs false]) : .xchg out q ∈ s.history ∨ out = f := by
  rcases List.mem_append.1 h with hold | hnew
  · exact .inl (xchg_mem_assertSelect.1 hold)
  · right
    simp at hnew
    exact hnew.1

theorem xchg_mem_sendWrite {f : Frame} {s : State} (h : .xchg out q ∈ (sendWrite f s).history) :
    .xchg out q ∈ s.history ∨ out = f := by
  rcases sendWrite_cases f s with ⟨_, _, _, ⟨-, he⟩ | ⟨-, he⟩ | ⟨-, -, he⟩⟩ | ⟨-, he⟩ <;> rw [he] at h
  · exact xchg_mem_exchanged h
  · exact xchg_mem_exchanged (xchg_mem_finish.1 h)
  · exact xchg_mem_exchanged h
  · exact .inl (xchg_mem_assertSelect.1 h)

theorem xchg_mem_sendRead {r : Reg} {s : State} (h : .xchg out q ∈ (sendRead r s).history) :
    .xchg out q ∈ s.history ∨ out = rdreq r.addr := by
  rcases sendRead_cases r s with ⟨_, _, _, ⟨-, he⟩ | ⟨-, he⟩ | ⟨-, -, he⟩⟩ | ⟨-, he⟩ <;> rw [he] at h
  · exact xchg_mem_exchanged h
  · exact xchg_mem_exchanged h
  · exact xchg_mem_exchanged h
  · exact .inl (xchg_mem_assertSelect.1 h)

theorem exec_command_history {i : Instr} {s t : State} (hc : i.isCommand = true) (hp : s.phase = .idle)
    (he : exec i s = .next t) : t.history = s.history ∨ t.history = s.history ++ [.done .ok] := by
  rcases exec_command_cases hc hp he with ⟨_, _, -, rfl⟩ | ⟨-, rfl⟩ | ⟨_, _, -, rfl⟩ | ⟨_, _, _, -, rfl⟩ |
    ⟨_, _, -, rfl⟩ | ⟨-, rfl⟩ | ⟨_, _, -, rfl⟩
  · exact .inr rfl
  · exact .inr rfl
  all_goals exact .inl rfl

/-- A step sends `txf` in the transmit phases, a read request in the read phases, and nothing elsewhere (R122, R123, R135,
R105). -/
theorem xchg_of_step {s t : State} (h : step s = .next t) (hm : .xchg out q ∈ t.history) :
    .xchg out q ∈ s.history ∨ ((s.phase = .wTransmit ∨ s.phase = .sTransmit) ∧ out = s.txf) ∨ ∃ a, out = rdreq a := by
  rcases step_cases h with ⟨-, -, rfl⟩ | ⟨hp, -, i, -, hc, he⟩ | ⟨-, rfl⟩ | ⟨hp, rfl⟩ | ⟨-, rfl⟩ | ⟨-, rfl⟩ | ⟨-, rfl⟩ |
    ⟨-, rfl⟩ | ⟨hp, rfl⟩ | ⟨-, rfl⟩ | ⟨-, rfl⟩ | ⟨-, rfl⟩
  · unfold hostTurn at hm
    split at hm <;> exact .inl hm
  · rcases exec_command_history hc hp he with hh | hh <;> rw [hh] at hm
    · exact .inl hm
    · exact .inl (by simpa using hm)
  · exact .inl hm
  · exact (xchg_mem_sendWrite hm).imp_right fun hout => .inl ⟨.inl hp, hout⟩
  · exact (xchg_mem_sendRead hm).imp_right fun hout => .inr ⟨_, hout⟩
  · rcases comparePhase_cases s with hcmp | hcmp | hcmp <;> rw [hcmp] at hm
    · exact .inl (xchg_mem_finish.1 hm)
    · exact .inl hm
    · exact .inl ((xchg_mem_finish (s := State.setErr true s)).1 hm)
  · rcases backoffPhase_cases s with ⟨_, he⟩ | ⟨-, he⟩ <;> rw [he] at hm
    · exact .inl (by simpa using hm)
    · exact .inl hm
  · exact .inl hm
  · exact (xchg_mem_sendWrite hm).imp_right fun hout => .inl ⟨.inr hp, hout⟩
  · exact (xchg_mem_sendRead hm).imp_right fun hout => .inr ⟨_, hout⟩
  · exact .inl ((xchg_mem_finish (s := { s with mirror := s.mirror.storeReply (Reg.ofAddr s.cur) s.rbf })).1 hm)
  · rcases bulkNextPhase_cases s with hnext | ⟨_, _, _, -, hnext⟩ <;> rw [hnext] at hm
    · exact .inl (by simpa using hm)
    · exact .inl hm

end

/-- A register's frame is one of the table, whatever the cells hold: its reserved bits are zeros (R59). -/
theorem isSentFrame_encode (m : Mirror) (r : Reg) : isSentFrame (m.encode r) = true := by
  rw [isSentFrame, decode, decodeFrame_of_isWrite (isWrite_encode m r) (m.encode_address r) m,
    if_pos (m.encode_and_reserved r)]
  rfl

theorem isSentFrame_rdreq (a : Addr) : isSentFrame (rdreq a) = true := by
  rw [isSentFrame, decode, decodeFrame_rdreq]
  rfl

/-- In a transmit phase `txf` is a register's frame (R121, R135). -/
theorem ControllerInv.txf_isSentFrame {s : State} (h : ControllerInv s) (hp : s.phase = .wTransmit ∨ s.phase = .sTransmit) :
    isSentFrame s.txf = true := by
  rcases hp with hp | hp
  · rw [h.frame_encoded (by rw [hp]; rfl)]
    exact isSentFrame_encode _ _
  · rw [h.status_encoded hp]
    exact isSentFrame_encode _ _

/-! ### Steps that never end -/

/-- A state that its step leaves as it is stays for ever. -/
theorem steps_of_fixed {s : State} (h : step s = .next s) (n : Nat) : steps n s = .next s := by
  induction n with
  | zero => rfl
  | succ n ih => rw [steps_succ_of_next n h, ih]

/-- An exchange that never returns leaves the state but for the asserted select, in every phase that makes one (R46). -/
theorem step_hangs {s : State} {rest : List Answer} (hp : s.phase.isExchange = true)
    (h : s.transport = .never :: rest) : step s = .next s.assertSelect := by
  cases hphase : s.phase with
  | wTransmit => rw [step_transmit (.inl hphase), sendWrite, exchange_hangs _ _ h]
  | sTransmit => rw [step_transmit (.inr hphase), sendWrite, exchange_hangs _ _ h]
  | wVerify => rw [step_request (.inl hphase), sendRead, exchange_hangs _ _ h]
  | rExchange => rw [step_request (.inr hphase), sendRead, exchange_hangs _ _ h]
  | idle | wEncode | wCompare | wBackoff | sEncode | rDecode | bNext =>
    rw [hphase] at hp
    cases hp

theorem busy_of_isExchange {s : State} (hp : s.phase.isExchange = true) : s.busy = true := by
  cases hphase : s.phase <;> simp [hphase, Phase.isExchange, State.busy] at hp ⊢

end Sys2Proof.Machine

open Sys2Proof Sys2Proof.Machine

/-- Settles O41: the steps that write the mirror are R_DECODE and the acceptances, and of these five write a cell. -/
theorem whoWritesTheMirror : Obligations.WhoWritesTheMirror := by
  unfold Obligations.WhoWritesTheMirror
  intro s t h
  rcases step_mirror_cases h with heq | hdecode | ⟨hp, hv, i, hd, hc, he⟩
  · exact .inl heq
  · exact .inr (.inl hdecode)
  · rcases exec_command_mirror hc hp he with heq | ⟨f, v, rfl, hm⟩ | ⟨rfl, hm⟩ | ⟨rfl, hm⟩ | ⟨rfl, hm⟩ | ⟨rfl, hm⟩
    · exact .inl heq
    · exact .inr (.inr ⟨hp, hv, .inl ⟨f, v, hd, hm⟩⟩)
    · exact .inr (.inr ⟨hp, hv, .inr (.inl ⟨hd, hm⟩)⟩)
    · exact .inr (.inr ⟨hp, hv, .inr (.inr (.inl ⟨hd, hm⟩))⟩)
    · exact .inr (.inr ⟨hp, hv, .inr (.inr (.inr (.inl ⟨hd, hm⟩)))⟩)
    · exact .inr (.inr ⟨hp, hv, .inr (.inr (.inr (.inr ⟨hd, fun f => hm ▸ s.mirror.clearStatus_get f⟩)))⟩)

/-- Settles O51: the ways into IDLE are the end of a single command, a command that completes at once, and the wait there. -/
theorem idleKeepsSequencing : Obligations.IdleKeepsSequencing := by
  unfold Obligations.IdleKeepsSequencing
  exact fun _ _ h ht => KeepsSequencing.of_step h ht

/-- Settles O43: operation by operation, phase by phase. -/
theorem eventsOfOneStep : Obligations.EventsOfOneStep := by
  unfold Obligations.EventsOfOneStep
  exact fun _ _ hs h => AddsEvents.of_step hs h

/-- Settles O44: a new frame is `txf`, which the invariant makes a register's encoding, or a read request. -/
theorem sentFramesAreTableFrames : Obligations.SentFramesAreTableFrames := by
  unfold Obligations.SentFramesAreTableFrames
  intro s t hinv h hsent out q hm
  rcases xchg_of_step h hm with hold | ⟨hp, rfl⟩ | ⟨a, rfl⟩
  · exact hsent out q hold
  · exact hinv.txf_isSentFrame hp
  · exact isSentFrame_rdreq a

/-- Settles O45: the state with the select asserted, and the state in W_BACKOFF, are left as they are by their step. -/
theorem hangHoldsTheController : Obligations.HangHoldsTheController := by
  unfold Obligations.HangHoldsTheController
  refine ⟨fun s rest n hp h => ⟨?_, State.assertSelect_phase s, busy_of_isExchange hp⟩, fun s n hp h => ?_⟩
  · have hfixed : step s.assertSelect = .next s.assertSelect := by
      have hagain := step_hangs (s := s.assertSelect) (by rwa [State.assertSelect_phase])
        ((State.assertSelect_transport s).trans h)
      rwa [assertSelect_idem] at hagain
    rw [steps_succ_of_next n (step_hangs hp h), steps_of_fixed hfixed]
  · have hdelay : s.takeDelay = none := (takeDelay_eq_none s).2 h
    exact steps_of_fixed (by rw [step_wBackoff hp, backoffPhase, hdelay]) n
end

section
/-! SUPPORT. The commands of one write (spec/43_verified_write.md R120 to R128, R135; spec/44_bulk_and_system.md R145 to
R148): the status write and GET_STATUS, the replies and waits of a verified write, its run attempt by attempt, and the counts
of its events. -/

namespace Sys2Proof.Machine

/-! ### Acceptance -/

theorem exec_of_statusWriteOf {i : Instr} {op : Op} {m : Mirror} {s : State}
    (h : statusWriteOf s.mirror i = some (op, m)) (hp : s.phase = .idle) :
    exec i s = .next { s with mirror := m, cmdValid := false, op := op, cur := 7, phase := .sEncode } := by
  cases i with
  | writeStatus =>
    cases h
    exact accept_idle (startStatusWrite .write) hp
  | clearStatus =>
    cases h
    exact accept_idle (fun s => startStatusWrite .clearStatus { s with mirror := s.mirror.clearStatus }) hp
  | _ => cases h

theorem exec_of_verifiedWriteOf {i : Instr} {op : Op} {r : Reg} {m : Mirror} {s : State}
    (h : verifiedWriteOf s.mirror i = some (op, r, m)) (hp : s.phase = .idle) :
    exec i s = .next { s with mirror := m, cmdValid := false, op := op, cur := r.addr, phase := .wEncode } := by
  cases i with
  | enable =>
    cases h
    exact accept_idle (fun s => startWrite .enable .ctrl { s with mirror := s.mirror.setEnbl 1 }) hp
  | disable =>
    cases h
    exact accept_idle (fun s => startWrite .disable .ctrl { s with mirror := s.mirror.setEnbl 0 }) hp
  | writeCtrl | writeTorque | writeOff | writeBlank | writeDecay | writeStall | writeDrive =>
    cases h
    exact accept_idle (startWrite .write _) hp
  | _ => cases h

/-- The frame of the cleared STATUS is its address alone (R148). -/
theorem encode_clearStatus (m : Mirror) : m.clearStatus.encode .status = 0x7000 := by
  change StatusCells.enc ⟨0, 0, 0, 0, 0, 0, 0, 0⟩ = 0x7000
  decide

/-! ### Runs that end at their last step -/

/-- A run of `k` steps that is busy until its last state (R20). -/
def BusyRun (k : Nat) (s t : State) : Prop :=
  steps k s = .next t ∧ ∀ j v, j < k → steps j s = .next v → v.phase ≠ .idle

theorem BusyRun.single {s t : State} (hbusy : s.phase ≠ .idle) (h : step s = .next t) : BusyRun 1 s t := by
  refine ⟨steps_succ_of_next 0 h, fun j v hj hv => ?_⟩
  obtain rfl : j = 0 := by omega
  cases hv
  exact hbusy

theorem BusyRun.trans {j k : Nat} {s t u : State} (h1 : BusyRun j s t) (h2 : BusyRun k t u) : BusyRun (j + k) s u := by
  obtain ⟨hrun1, hbusy1⟩ := h1
  obtain ⟨hrun2, hbusy2⟩ := h2
  refine ⟨(steps_add_of_next j k hrun1).trans hrun2, fun l v hl hv => ?_⟩
  rcases Nat.lt_or_ge l j with hlt | hge
  · exact hbusy1 l v hlt hv
  · rw [← Nat.add_sub_cancel' hge, steps_add_of_next j _ hrun1] at hv
    exact hbusy2 (l - j) v (by omega) hv

/-- The plain STATUS write from S_ENCODE to the end of its sub-operation: one exchange, and OK whatever the reply (R135). -/
theorem statusWrite_run {s s1 : State} {q : Frame} (hp : s.phase = .sEncode) (hs : s.select = false)
    (h : s.takeAnswer = some (q, s1)) :
    BusyRun 2 s (finish .ok { s with
      transport := s1.transport, freeDraws := s1.freeDraws, phase := .sTransmit, txf := s.mirror.encode .status,
      history := s.history ++ exchangeEvents (s.mirror.encode .status) q }) := by
  have hencode : BusyRun 1 s (statusEncodePhase s) := .single (by rw [hp]; exact nofun) (step_sEncode hp)
  have htransmit : BusyRun 1 (statusEncodePhase s) _ := .single nofun (step_transmit (.inr rfl))
  rw [sendWrite_sTransmit (s := statusEncodePhase s) _ hs (takeAnswer_of_environment (s := s) rfl rfl h) rfl] at htransmit
  exact hencode.trans htransmit

/-! ### Replies and waits -/

/-- The replies of the first of several attempts, and the rest. -/
theorem takePairs_succ {n : Nat} {s s2 : State} {ps : List (Frame × Frame)} (h : s.takePairs (n + 1) = some (ps, s2)) :
    ∃ w q sw sq rest, s.takeAnswer = some (w, sw) ∧ sw.takeAnswer = some (q, sq) ∧
      sq.takePairs n = some (rest, s2) ∧ ps = (w, q) :: rest := by
  rw [State.takePairs] at h
  cases hreplies : s.takeReplies 2 with
  | none => simp [hreplies] at h
  | some p =>
    obtain ⟨qs, sq⟩ := p
    obtain ⟨w, sw, qs', hw, hrest, rfl⟩ := takeReplies_succ hreplies
    obtain ⟨q, sq', qs'', hq, hnil, rfl⟩ := takeReplies_succ hrest
    cases hnil
    simp only [hreplies, Option.map_eq_some_iff, Prod.exists, Prod.mk.injEq] at h
    obtain ⟨rest, _, htail, rfl, rfl⟩ := h
    exact ⟨w, q, sw, sq, rest, hw, hq, htail, rfl⟩

/-- Two answers make the replies of an attempt. -/
theorem takePairs_cons {n : Nat} {s sw sq s2 : State} {w q : Frame} {ps : List (Frame × Frame)}
    (hw : s.takeAnswer = some (w, sw)) (hq : sw.takeAnswer = some (q, sq)) (h : sq.takePairs n = some (ps, s2)) :
    s.takePairs (n + 1) = some ((w, q) :: ps, s2) := by
  simp [State.takePairs, State.takeReplies, hw, hq, h]

theorem takePairs_length {n : Nat} {s s1 : State} {ps : List (Frame × Frame)} (h : s.takePairs n = some (ps, s1)) :
    ps.length = n := by
  induction n generalizing s ps with
  | zero =>
    cases h
    rfl
  | succ n ih =>
    obtain ⟨_, _, _, _, rest, -, -, hrest, rfl⟩ := takePairs_succ h
    rw [List.length_cons, ih hrest]

/-- Taken replies touch the Transport's fields only. -/
theorem takePairs_frame {n : Nat} {s s1 : State} {ps : List (Frame × Frame)} (h : s.takePairs n = some (ps, s1)) :
    s1 = { s with transport := s1.transport, freeDraws := s1.freeDraws } := by
  induction n generalizing s ps with
  | zero =>
    cases h
    rfl
  | succ n ih =>
    obtain ⟨_, _, _, _, _, hw, hq, hrest, -⟩ := takePairs_succ h
    rw [ih hrest, takeAnswer_frame hq, takeAnswer_frame hw]

/-- Replies are a function of the Transport's own fields (R45). -/
theorem takePairs_of_environment {n : Nat} {s t s1 : State} {ps : List (Frame × Frame)} (htr : t.transport = s.transport)
    (hfd : t.freeDraws = s.freeDraws) (h : s.takePairs n = some (ps, s1)) :
    t.takePairs n = some (ps, { t with transport := s1.transport, freeDraws := s1.freeDraws }) := by
  induction n generalizing s t ps with
  | zero =>
    cases h
    rw [← htr, ← hfd]
    rfl
  | succ n ih =>
    obtain ⟨w, q, sw, sq, rest, hw, hq, hrest, rfl⟩ := takePairs_succ h
    have hw' := takeAnswer_of_environment htr hfd hw
    have hq' := takeAnswer_of_environment (s := sw)
      (t := { t with transport := sw.transport, freeDraws := sw.freeDraws }) rfl rfl hq
    exact takePairs_cons hw' hq' (ih (s := sq) (t := { t with transport := sq.transport, freeDraws := sq.freeDraws })
      rfl rfl hrest)

/-- A wait is a function of the delay service's own field (R46). -/
theorem takeDelay_of_service {s t s1 : State} (hd : t.delayHangsAfter = s.delayHangsAfter)
    (h : s.takeDelay = some s1) : t.takeDelay = some { t with delayHangsAfter := s1.delayHangsAfter } := by
  rcases takeDelay_of_environment hd with ⟨d, hs, ht⟩ | ⟨hs, -⟩
  · rw [h] at hs
    cases hs
    exact ht
  · rw [h] at hs
    cases hs

theorem takeDelays_succ {k : Nat} {s s2 : State} (h : s.takeDelays (k + 1) = some s2) :
    ∃ s1, s.takeDelay = some s1 ∧ s1.takeDelays k = some s2 :=
  Option.bind_eq_some_iff.1 h

theorem takeDelays_frame {k : Nat} {s s1 : State} (h : s.takeDelays k = some s1) :
    s1 = { s with delayHangsAfter := s1.delayHangsAfter } := by
  induction k generalizing s with
  | zero =>
    cases h
    rfl
  | succ k ih =>
    obtain ⟨s', hd, hrest⟩ := takeDelays_succ h
    rw [ih hrest, takeDelay_frame hd]

theorem takeDelays_of_service {k : Nat} {s t s1 : State} (hd : t.delayHangsAfter = s.delayHangsAfter)
    (h : s.takeDelays k = some s1) : t.takeDelays k = some { t with delayHangsAfter := s1.delayHangsAfter } := by
  induction k generalizing s t with
  | zero =>
    cases h
    rw [← hd]
    rfl
  | succ k ih =>
    obtain ⟨s', hwait, hrest⟩ := takeDelays_succ h
    rw [State.takeDelays, takeDelay_of_service hd hwait]
    exact ih (s := s') (t := { t with delayHangsAfter := s'.delayHangsAfter }) rfl hrest

/-! ### The attempts of a verified write -/

/-- One attempt: the frame, then the read request, to the compare (R122, R123). -/
theorem attempt_run {s sw sq : State} {w q : Frame} (hp : s.phase = .wTransmit) (hs : s.select = false)
    (hw : s.takeAnswer = some (w, sw)) (hq : sw.takeAnswer = some (q, sq)) :
    BusyRun 2 s { s with
      transport := sq.transport, freeDraws := sq.freeDraws, phase := .wCompare, rbf := q,
      history := s.history ++ attemptEvents s.txf s.cur (w, q) } := by
  have htransmit : BusyRun 1 s { sw with phase := .wVerify, history := s.history ++ exchangeEvents s.txf w } :=
    .single (by rw [hp]; exact nofun) (by rw [step_transmit (.inl hp), sendWrite_wTransmit _ hs hw hp])
  have hverify := step_wVerify_answered
    (s := { sw with phase := .wVerify, history := s.history ++ exchangeEvents s.txf w }) rfl
    ((takeAnswer_select hw).trans hs) (takeAnswer_of_environment (s := sw) rfl rfl hq)
  have hrun := htransmit.trans (.single nofun hverify)
  rw [takeAnswer_frame hw] at hrun
  simpa only [attemptEvents, List.append_assoc] using hrun

/-- A mismatch before the tenth attempt: the wait, its record and the next number (R125, R127). -/
theorem retry_run {s s1 : State} (hp : s.phase = .wCompare) (hm : payloadsMatch s.txf s.rbf = false)
    (ha : s.att.toNat < 10) (hd : s.takeDelay = some s1) :
    BusyRun 2 s { s with
      delayHangsAfter := s1.delayHangsAfter, phase := .wTransmit, att := s.att + 1,
      history := s.history ++ [.delay s.att.toNat] } := by
  have hcompare : BusyRun 1 s (State.goto .wBackoff s) :=
    .single (by rw [hp]; exact nofun) (by rw [step_wCompare hp, comparePhase_of_retry hm ha])
  have hwait : backoffPhase (State.goto .wBackoff s) = { s with
      delayHangsAfter := s1.delayHangsAfter, phase := .wTransmit, att := s.att + 1,
      history := s.history ++ [.delay s.att.toNat] } := by
    rw [backoffPhase, takeDelay_of_service (s := s) (t := State.goto .wBackoff s) rfl hd]
    rfl
  exact hcompare.trans (.single nofun (by rw [step_wBackoff rfl, hwait]))

/-- The compare of the last attempt ends the sub-operation, with `err` set if it did not match (R124, R126). -/
theorem compare_run {s : State} (hp : s.phase = .wCompare)
    (hend : payloadsMatch s.txf s.rbf = true ∨ 10 ≤ s.att.toNat) :
    BusyRun 1 s (finish (.ofMatched (payloadsMatch s.txf s.rbf))
      { s with err := s.err || !payloadsMatch s.txf s.rbf }) := by
  refine .single (by rw [hp]; exact nofun) ?_
  rw [step_wCompare hp]
  cases hm : payloadsMatch s.txf s.rbf with
  | true =>
    rw [comparePhase_of_match hm, Bool.not_true, Bool.or_false]
    rfl
  | false =>
    have ha : 10 ≤ s.att.toNat := hend.resolve_left (by simp [hm])
    rw [comparePhase_of_exhausted hm ha, Bool.not_false, Bool.or_true]
    rfl

theorem lastReadback_cons_cons (p p' : Frame × Frame) (ps : List (Frame × Frame)) :
    lastReadback (p :: p' :: ps) = lastReadback (p' :: ps) := by
  simp [lastReadback]

/-- The attempts from W_TRANSMIT to the last compare, all but the last mismatched (R122 to R128). -/
theorem attempts_run {p : Frame × Frame} {ps : List (Frame × Frame)} {s s1 s2 : State} (hp : s.phase = .wTransmit)
    (hs : s.select = false) (hpairs : s.takePairs (ps.length + 1) = some (p :: ps, s1))
    (hdelays : s.takeDelays ps.length = some s2) (hmis : ∀ x ∈ (p :: ps).dropLast, payloadsMatch s.txf x.2 = false)
    (hatt : s.att.toNat + ps.length ≤ 10) :
    BusyRun (4 * ps.length + 2) s { s with
      transport := s1.transport, freeDraws := s1.freeDraws, delayHangsAfter := s2.delayHangsAfter, phase := .wCompare,
      att := s.att + BitVec.ofNat 4 ps.length, rbf := lastReadback (p :: ps),
      history := s.history ++ writeEvents s.txf s.cur s.att.toNat (p :: ps) } := by
  induction ps generalizing p s s1 s2 with
  | nil =>
    obtain ⟨w, q, sw, sq, rest, hw, hq, hrest, hcons⟩ := takePairs_succ hpairs
    cases hcons
    cases hrest
    cases hdelays
    simpa [lastReadback, writeEvents] using attempt_run hp hs hw hq
  | cons p' ps ih =>
    obtain ⟨w, q, sw, sq, rest, hw, hq, hrest, hcons⟩ := takePairs_succ hpairs
    cases hcons
    obtain ⟨sd, hd, hdrest⟩ := takeDelays_succ hdelays
    rw [List.length_cons] at hatt
    have hfirst : payloadsMatch s.txf q = false := hmis (w, q) (by simp)
    have hattempt := attempt_run hp hs hw hq
    have hretry := retry_run (s := { s with
        transport := sq.transport, freeDraws := sq.freeDraws, phase := .wCompare, rbf := q,
        history := s.history ++ attemptEvents s.txf s.cur (w, q) }) rfl hfirst (show s.att.toNat < 10 by omega)
      (takeDelay_of_service (s := s) rfl hd)
    have hnext : (s.att + 1).toNat = s.att.toNat + 1 := att_succ_toNat (by omega)
    have hleft := ih (p := p')
      (s := { s with
        transport := sq.transport, freeDraws := sq.freeDraws, delayHangsAfter := sd.delayHangsAfter,
        phase := .wTransmit, att := s.att + 1, rbf := q,
        history := s.history ++ attemptEvents s.txf s.cur (w, q) ++ [.delay s.att.toNat] })
      rfl hs (takePairs_of_environment (s := sq) rfl rfl hrest) (takeDelays_of_service (s := sd) rfl hdrest)
      (fun x hx => hmis x (List.mem_cons_of_mem _ hx)) (by rw [hnext]; omega)
    have hrun := (hattempt.trans hretry).trans hleft
    have hcount : s.att + BitVec.ofNat 4 (p' :: ps).length = s.att + 1 + BitVec.ofNat 4 ps.length := by
      rw [List.length_cons, BitVec.ofNat_add, BitVec.add_comm (BitVec.ofNat 4 ps.length), ← BitVec.add_assoc]
      rfl
    have hsteps : 4 * (p' :: ps).length + 2 = 2 + 2 + (4 * ps.length + 2) := by
      rw [List.length_cons]
      omega
    rw [hcount, hsteps, lastReadback_cons_cons]
    rw [hnext] at hrun
    simpa only [writeEvents, List.append_assoc] using hrun

/-- A verified write from W_ENCODE to the end of its sub-operation: its attempts and their result (R120 to R128). -/
theorem verifiedWrite_run {s s1 s2 : State} {r : Reg} {n : Nat} {ps : List (Frame × Frame)} (hp : s.phase = .wEncode)
    (hs : s.select = false) (hcur : s.cur = r.addr) (hpairs : s.takePairs n = some (ps, s1))
    (hdelays : s.takeDelays (n - 1) = some s2) (hlegal : legalAttempts (s.mirror.encode r) ps) :
    BusyRun (4 * n) s (finish (.ofMatched (attemptsMatched (s.mirror.encode r) ps)) { s with
      transport := s1.transport, freeDraws := s1.freeDraws, delayHangsAfter := s2.delayHangsAfter, phase := .wCompare,
      att := BitVec.ofNat 4 n, txf := s.mirror.encode r, rbf := lastReadback ps,
      err := s.err || !attemptsMatched (s.mirror.encode r) ps,
      history := s.history ++ writeEvents (s.mirror.encode r) r.addr 1 ps }) := by
  obtain ⟨hlow, hhigh, hmis, hend⟩ := hlegal
  obtain rfl := takePairs_length hpairs
  obtain ⟨p, ps, rfl⟩ : ∃ p qs, ps = p :: qs := List.exists_cons_of_length_pos hlow
  rw [List.length_cons] at hhigh hend hpairs hdelays ⊢
  have hencode : BusyRun 1 s { s with phase := .wTransmit, att := 1, txf := s.mirror.encode r } := by
    refine .single (by rw [hp]; exact nofun) ?_
    rw [step_wEncode hp, encodePhase, hcur, Reg.ofAddr_addr]
    rfl
  have hattempts := attempts_run (s := { s with phase := .wTransmit, att := 1, txf := s.mirror.encode r })
    rfl hs (takePairs_of_environment (s := s) rfl rfl hpairs) (takeDelays_of_service (s := s) rfl hdelays) hmis
    (show 1 + ps.length ≤ 10 by omega)
  have hnumber : (1 : BitVec 4) + BitVec.ofNat 4 ps.length = BitVec.ofNat 4 (ps.length + 1) := by
    rw [Nat.add_comm, BitVec.ofNat_add]
    rfl
  have hlast : (BitVec.ofNat 4 (ps.length + 1)).toNat = ps.length + 1 := by
    rw [BitVec.toNat_ofNat]
    omega
  have hcompare := compare_run (s := { s with
      transport := s1.transport, freeDraws := s1.freeDraws, delayHangsAfter := s2.delayHangsAfter, phase := .wCompare,
      att := BitVec.ofNat 4 (ps.length + 1), txf := s.mirror.encode r, rbf := lastReadback (p :: ps),
      history := s.history ++ writeEvents (s.mirror.encode r) s.cur 1 (p :: ps) }) rfl
    (hend.imp_right fun hten => by rw [hlast, hten])
  rw [hnumber] at hattempts
  have hsteps : 4 * (ps.length + 1) = 1 + (4 * ps.length + 2) + 1 := by omega
  rw [hsteps, ← hcur]
  exact (hencode.trans hattempts).trans hcompare

/-! ### The attempts that a Transport's answers make -/

/-- A Transport that never hangs answers, and does not hang after (R45). -/
theorem takeAnswer_of_neverHangs {s : State} (h : s.neverHangs) :
    ∃ q s1, s.takeAnswer = some (q, s1) ∧ s1.neverHangs := by
  obtain ⟨hanswers, hdelay⟩ := h
  cases hans : s.takeAnswer with
  | none =>
    obtain ⟨rest, htr⟩ := (takeAnswer_eq_none s).1 hans
    exact absurd rfl (hanswers .never (by simp [htr]))
  | some p =>
    refine ⟨p.1, p.2, rfl, ?_⟩
    unfold State.takeAnswer at hans
    split at hans <;> cases hans
    case h_1 _ rest htr => exact ⟨fun a ha => hanswers a (by simp [htr, ha]), hdelay⟩
    case h_3 htr => exact ⟨hanswers, hdelay⟩

/-- Attempts up to a bound: all but the last mismatched, and the last one matched or the bound reached (R124 to R128). -/
def attemptsWithin (bound : Nat) (f : Frame) (ps : List (Frame × Frame)) : Prop :=
  1 ≤ ps.length ∧ ps.length ≤ bound ∧ (∀ p ∈ ps.dropLast, payloadsMatch f p.2 = false) ∧
    (payloadsMatch f (lastReadback ps) = true ∨ ps.length = bound)

theorem legalAttempts_iff (f : Frame) (ps : List (Frame × Frame)) : legalAttempts f ps ↔ attemptsWithin 10 f ps := .rfl

theorem attemptsWithin_single {f : Frame} {p : Frame × Frame} {bound : Nat} (hpos : 1 ≤ bound)
    (h : payloadsMatch f p.2 = true ∨ bound = 1) : attemptsWithin bound f [p] :=
  ⟨Nat.le_refl 1, hpos, by simp, h.imp_right Eq.symm⟩

theorem attemptsWithin_cons {f : Frame} {p : Frame × Frame} {ps : List (Frame × Frame)} {bound : Nat}
    (hp : payloadsMatch f p.2 = false) (h : attemptsWithin bound f ps) : attemptsWithin (bound + 1) f (p :: ps) := by
  obtain ⟨hlow, hhigh, hmis, hend⟩ := h
  obtain ⟨p', ps, rfl⟩ : ∃ p' qs, ps = p' :: qs := List.exists_cons_of_length_pos hlow
  refine ⟨by simp, by simpa using hhigh, ?_, ?_⟩
  · rw [List.dropLast_cons_of_ne_nil (List.cons_ne_nil p' ps)]
    exact List.forall_mem_cons.2 ⟨hp, hmis⟩
  · rw [lastReadback_cons_cons]
    exact hend.imp_right fun h => by rw [List.length_cons, h]

/-- On a Transport that answers, the attempts up to any bound come to an end (R45, D6). -/
theorem attemptsWithin_exist {s : State} (f : Frame) (bound : Nat) (h : s.neverHangs) :
    ∃ n ps s1, s.takePairs n = some (ps, s1) ∧ s1.neverHangs ∧ attemptsWithin (bound + 1) f ps := by
  induction bound generalizing s with
  | zero =>
    obtain ⟨w, sw, hw, hsw⟩ := takeAnswer_of_neverHangs h
    obtain ⟨q, sq, hq, hsq⟩ := takeAnswer_of_neverHangs hsw
    exact ⟨1, [(w, q)], sq, takePairs_cons hw hq rfl, hsq, attemptsWithin_single (Nat.le_refl 1) (.inr rfl)⟩
  | succ bound ih =>
    obtain ⟨w, sw, hw, hsw⟩ := takeAnswer_of_neverHangs h
    obtain ⟨q, sq, hq, hsq⟩ := takeAnswer_of_neverHangs hsw
    cases hm : payloadsMatch f q with
    | true => exact ⟨1, [(w, q)], sq, takePairs_cons hw hq rfl, hsq, attemptsWithin_single (by omega) (.inl hm)⟩
    | false =>
      obtain ⟨n, ps, s1, hpairs, hs1, hwithin⟩ := ih hsq
      exact ⟨n + 1, (w, q) :: ps, s1, takePairs_cons hw hq hpairs, hs1, attemptsWithin_cons hm hwithin⟩

/-! ### The counts of a verified write's events -/

theorem exchangeCount_append (es fs : List Event) : exchangeCount (es ++ fs) = exchangeCount es + exchangeCount fs :=
  List.countP_append

theorem delayArgs_append (es fs : List Event) : delayArgs (es ++ fs) = delayArgs es ++ delayArgs fs :=
  List.filterMap_append

theorem exchangeCount_attempt (f : Frame) (a : Addr) (p : Frame × Frame) : exchangeCount (attemptEvents f a p) = 2 := rfl

theorem delayArgs_attempt (f : Frame) (a : Addr) (p : Frame × Frame) : delayArgs (attemptEvents f a p) = [] := rfl

theorem writeEvents_cons_cons (f : Frame) (a : Addr) (k : Nat) (p p' : Frame × Frame) (ps : List (Frame × Frame)) :
    writeEvents f a k (p :: p' :: ps) = attemptEvents f a p ++ [.delay k] ++ writeEvents f a (k + 1) (p' :: ps) := rfl

/-- Two exchanges to an attempt (R122, R123). -/
theorem exchangeCount_writeEvents (f : Frame) (a : Addr) (k : Nat) (ps : List (Frame × Frame)) :
    exchangeCount (writeEvents f a k ps) = 2 * ps.length := by
  induction ps generalizing k with
  | nil => rfl
  | cons p ps ih =>
    cases ps with
    | nil => rfl
    | cons p' ps =>
      have hdelay : exchangeCount [.delay k] = 0 := rfl
      rw [writeEvents_cons_cons, exchangeCount_append, exchangeCount_append, ih, exchangeCount_attempt, hdelay]
      simp only [List.length_cons]
      omega

/-- A delay after each attempt but the last, numbered on (R127). -/
theorem delayArgs_writeEvents (f : Frame) (a : Addr) (k : Nat) (ps : List (Frame × Frame)) :
    delayArgs (writeEvents f a k ps) = List.range' k (ps.length - 1) := by
  induction ps generalizing k with
  | nil => rfl
  | cons p ps ih =>
    cases ps with
    | nil => rfl
    | cons p' ps =>
      rw [writeEvents_cons_cons, delayArgs_append, delayArgs_append, ih, delayArgs_attempt]
      rfl

theorem done_not_mem_writeEvents (f : Frame) (a : Addr) (k : Nat) (ps : List (Frame × Frame)) (res : Result) :
    .done res ∉ writeEvents f a k ps := by
  induction ps generalizing k with
  | nil => simp [writeEvents]
  | cons p ps ih =>
    cases ps with
    | nil => simp [writeEvents, attemptEvents, exchangeEvents]
    | cons p' ps => simp [writeEvents, attemptEvents, exchangeEvents, ih]

/-- The delays 1 to `k` sum to `k(k+1)/2` units (R127). -/
theorem two_mul_sum_range' (k : Nat) : 2 * (List.range' 1 k).sum = (k + 1) * k := by
  induction k with
  | zero => rfl
  | succ k ih =>
    rw [List.range'_1_concat, List.sum_append, Nat.mul_add, ih, List.sum_singleton]
    ring

/-- A run of attempts that never matched is ten attempts (R124, D6). -/
theorem legalAttempts_length_of_unmatched {f : Frame} {ps : List (Frame × Frame)} (h : legalAttempts f ps)
    (hm : attemptsMatched f ps = false) : ps.length = 10 := by
  obtain ⟨-, -, -, hend⟩ := h
  exact hend.resolve_left (by rw [← attemptsMatched, hm]; exact nofun)

/-- WRITE.r, ENABLE and DISABLE from their acceptance to their completion: the end of the sub-operation is the end of the
command (R120, R140, R145, R146). -/
theorem verifiedWriteOf_run {i : Instr} {op : Op} {r : Reg} {m : Mirror} {s s1 s2 : State} {n : Nat}
    {ps : List (Frame × Frame)} (h : verifiedWriteOf s.mirror i = some (op, r, m)) (hp : s.phase = .idle)
    (hs : s.select = false) (hpairs : s.takePairs n = some (ps, s1)) (hdelays : s1.takeDelays (n - 1) = some s2)
    (hlegal : legalAttempts (m.encode r) ps) :
    BusyRun (4 * n) { s with mirror := m, cmdValid := false, op := op, cur := r.addr, phase := .wEncode } { s2 with
      mirror := m, cmdValid := false, op := op, cur := r.addr, att := BitVec.ofNat 4 n, txf := m.encode r,
      rbf := lastReadback ps, err := s.err || !attemptsMatched (m.encode r) ps,
      history := s.history ++ writeEvents (m.encode r) r.addr 1 ps ++
        [.done (Result.ofMatched (attemptsMatched (m.encode r) ps))] } := by
  have hsingle : op.isBulk = false := by
    obtain ⟨rfl | rfl | rfl, -⟩ := verifiedWriteOf_op h <;> rfl
  have hservice : s.delayHangsAfter = s1.delayHangsAfter := by rw [takePairs_frame hpairs]
  have hrun := verifiedWrite_run
    (s := { s with mirror := m, cmdValid := false, op := op, cur := r.addr, phase := .wEncode }) rfl hs rfl
    (takePairs_of_environment (s := s) rfl rfl hpairs) (takeDelays_of_service (s := s1) hservice hdelays) hlegal
  rw [finish_of_single _ hsingle] at hrun
  rw [takeDelays_frame hdelays, takePairs_frame hpairs]
  simpa only [hp] using hrun

end Sys2Proof.Machine

open Sys2Proof Sys2Proof.Machine

/-- Settles O20: GET_STATUS is a read of STATUS, whose exchange and decode are the two steps. -/
theorem getStatusReadsStatus : Obligations.GetStatusReadsStatus := by
  unfold Obligations.GetStatusReadsStatus
  intro s s1 q hp hs hans
  have hexchange := step_rExchange_answered
    (s := { s with cmdValid := false, op := .getStatus, cur := 7, phase := .rExchange })
    (takeAnswer_of_environment (s := s) rfl rfl hans) rfl hs
  have hdecode := step_rDecode_of_single (r := .status) (s := { s with
      transport := s1.transport, freeDraws := s1.freeDraws, cmdValid := false, op := .getStatus, cur := 7,
      phase := .rDecode, rbf := q, history := s.history ++ exchangeEvents (rdreq 7) q }) rfl rfl rfl
  have hrequest : rdreq 7 = 0xF000 := by decide
  have haccept : exec .getStatus s =
      .next { s with cmdValid := false, op := .getStatus, cur := 7, phase := .rExchange } :=
    (exec_of_readOf rfl s).trans (accept_idle _ hp)
  refine ⟨_, haccept, rfl, ?_⟩
  rw [steps_succ_of_next 1 hexchange, steps_succ_of_next 0 hdecode, takeAnswer_frame hans, ← hrequest]
  simp [hp]

/-- Settles O21: S_ENCODE and S_TRANSMIT, whose exchange ends the command. -/
theorem statusWritesComplete : Obligations.StatusWritesComplete := by
  unfold Obligations.StatusWritesComplete
  intro i op m s s1 q h hp hs hans
  have hsingle : op.isBulk = false := by
    obtain rfl | rfl := statusWriteOf_op h <;> rfl
  refine ⟨_, exec_of_statusWriteOf h hp, rfl, ?_, ?_⟩
  · obtain ⟨hrun, -⟩ := statusWrite_run
      (s := { s with mirror := m, cmdValid := false, op := op, cur := 7, phase := .sEncode }) rfl hs
      (takeAnswer_of_environment (s := s) rfl rfl hans)
    rw [hrun, finish_of_single .ok hsingle, takeAnswer_frame hans]
    simp only [hp]
  · rintro rfl
    cases h
    exact encode_clearStatus s.mirror

/-- Settles O22: the acceptance, then the run attempt by attempt. -/
theorem verifiedWriteRunsItsAttempts : Obligations.VerifiedWriteRunsItsAttempts := by
  unfold Obligations.VerifiedWriteRunsItsAttempts
  intro i op r m s s1 s2 n ps h hp hs hpairs hdelays hlegal
  obtain ⟨hrun, -⟩ := verifiedWriteOf_run h hp hs hpairs hdelays hlegal
  exact ⟨_, exec_of_verifiedWriteOf h hp, rfl, hrun⟩

/-- Settles O23: the attempts up to a bound of ten come to an end. -/
theorem legalAttemptsExist : Obligations.LegalAttemptsExist := by
  unfold Obligations.LegalAttemptsExist
  intro s f h
  obtain ⟨n, ps, s1, hpairs, -, hwithin⟩ := attemptsWithin_exist f 9 h
  exact ⟨n, ps, s1, hpairs, (legalAttempts_iff f ps).2 hwithin⟩

/-- Settles O24: the events of the run are counted attempt by attempt, and an unmatched run is ten attempts. -/
theorem attemptCounts : Obligations.AttemptCounts := by
  unfold Obligations.AttemptCounts
  intro i op r m s s1 s2 n ps h hp hs hpairs hdelays hlegal
  obtain ⟨hrun, hbusy⟩ := verifiedWriteOf_run h hp hs hpairs hdelays hlegal
  obtain rfl := takePairs_length hpairs
  have ⟨hpos, _⟩ := hlegal
  refine ⟨_, _, writeEvents (m.encode r) r.addr 1 ps, _, exec_of_verifiedWriteOf h hp, hrun, ?_, fun k v => hbusy k v, rfl,
    done_not_mem_writeEvents _ _ _ ps, exchangeCount_writeEvents _ _ _ ps, delayArgs_writeEvents _ _ _ ps, ?_, ?_⟩
  · rw [takeDelays_frame hdelays, takePairs_frame hpairs]
    exact hp
  · rw [delayArgs_writeEvents, two_mul_sum_range', Nat.sub_add_cancel hpos]
  · intro hfail
    have hten : ps.length = 10 := legalAttempts_length_of_unmatched hlegal (by
      cases hm : attemptsMatched (m.encode r) ps with
      | true => rw [hm] at hfail; cases hfail
      | false => rfl)
    rw [exchangeCount_writeEvents, delayArgs_writeEvents, hten]
    decide
end

section
/-! SUPPORT. WRITE_ALL and INIT (spec/44_bulk_and_system.md R140, R142, R144): what the pass of some registers does to the
state between two B_NEXT, the pass of one verified register and of STATUS, the walk over the registers in address order, and
the counts of its events. -/

namespace Sys2Proof.Machine

/-! ### The pass of registers -/

/-- What the pass of `n` registers of a bulk write leaves, from one B_NEXT to another: their events in the history, a failure
in `err` and `acc`, and everything else but the registers of the single write and the environment as it was (R140, R142). -/
structure BulkPass (n : Nat) (matched : Bool) (es : List Event) (s u : State) : Prop where
  phase : u.phase = .bNext
  op : u.op = s.op
  seq : u.seq = s.seq + BitVec.ofNat 4 n
  err : u.err = (s.err || !matched)
  acc : u.acc = (s.acc && matched)
  mirror : u.mirror = s.mirror
  select : u.select = false
  cmdValid : u.cmdValid = s.cmdValid
  hostQueue : u.hostQueue = s.hostQueue
  neverHangs : u.neverHangs
  history : u.history = s.history ++ es

theorem BulkPass.refl {s : State} (hp : s.phase = .bNext) (hs : s.select = false) (h : s.neverHangs) :
    BulkPass 0 true [] s s :=
  ⟨hp, rfl, by simp, by simp, by simp, rfl, hs, rfl, rfl, h, by simp⟩

theorem BulkPass.trans {n n' : Nat} {b b' : Bool} {es es' : List Event} {s u v : State} (h : BulkPass n b es s u)
    (h' : BulkPass n' b' es' u v) : BulkPass (n + n') (b && b') (es ++ es') s v where
  phase := h'.phase
  op := h'.op.trans h.op
  seq := by rw [h'.seq, h.seq, BitVec.ofNat_add, BitVec.add_assoc]
  err := by rw [h'.err, h.err, Bool.not_and, Bool.or_assoc]
  acc := by rw [h'.acc, h.acc, Bool.and_assoc]
  mirror := h'.mirror.trans h.mirror
  select := h'.select
  cmdValid := h'.cmdValid.trans h.cmdValid
  hostQueue := h'.hostQueue.trans h.hostQueue
  neverHangs := h'.neverHangs
  history := by rw [h'.history, h.history, List.append_assoc]

/-- The end of a sub-operation inside a bulk write is B_NEXT with the result in `acc` (R140). -/
theorem BulkPass.finish {matched : Bool} {es : List Event} {s u : State} (hop : s.op.isBulk = true) (huop : u.op = s.op)
    (hseq : u.seq = s.seq + 1) (herr : u.err = (s.err || !matched)) (hacc : u.acc = s.acc) (hm : u.mirror = s.mirror)
    (hs : u.select = false) (hv : u.cmdValid = s.cmdValid) (hq : u.hostQueue = s.hostQueue) (hn : u.neverHangs)
    (hh : u.history = s.history ++ es) : BulkPass 1 matched es s (finish (.ofMatched matched) u) := by
  rw [finish_of_bulk _ (huop ▸ hop)]
  refine ⟨rfl, huop, hseq, herr, ?_, hm, hs, hv, hq, hn, hh⟩
  rw [hacc]
  cases matched <;> rfl

/-- B_NEXT of a bulk write: a verified write of the next register, or for the eighth the STATUS write (R140, R142). -/
theorem bulkNextPhase_of_write {s : State} (hseq : s.seq.toNat < 8) (hop : s.op ≠ .readAll) :
    bulkNextPhase s = { s with
      cur := s.seq.setWidth 3, seq := s.seq + 1, phase := if s.seq = 7 then .sEncode else .wEncode } := by
  rw [bulkNextPhase_of_lt hseq, if_neg hop]

/-- Where every wait ends, waits leave the delay service as it is (R46). -/
theorem takeDelays_of_free (k : Nat) {s : State} (h : s.delayHangsAfter = none) : s.takeDelays k = some s := by
  have hwait : s.takeDelay = some s := by simp only [State.takeDelay, h]
  induction k with
  | zero => rfl
  | succ k ih => rw [State.takeDelays, hwait, Option.bind_some, ih]

theorem BusyRun.refl (s : State) : BusyRun 0 s s := ⟨rfl, fun _ _ hj => absurd hj (Nat.not_lt_zero _)⟩

theorem BusyRun.of_bNext {s : State} (hp : s.phase = .bNext) : BusyRun 1 s (bulkNextPhase s) :=
  .single (by rw [hp]; exact nofun) (step_bNext hp)

/-- The pass of one verified register on a Transport that answers: some legal run of attempts (R142). -/
theorem verifiedRegister_pass {s : State} (hp : s.phase = .bNext) (hop : s.op.isBulk = true) (hwrite : s.op ≠ .readAll)
    (hs : s.select = false) (h : s.neverHangs) (hseq : s.seq.toNat < 7) {r : Reg}
    (hr : r.addr = s.seq.setWidth 3) :
    ∃ (k : Nat) (u : State) (ps : List (Frame × Frame)), k ≤ 41 ∧ BusyRun k s u ∧ legalAttempts (s.mirror.encode r) ps ∧
      BulkPass 1 (attemptsMatched (s.mirror.encode r) ps) (writeEvents (s.mirror.encode r) r.addr 1 ps) s u := by
  obtain ⟨n, ps, s1, hpairs, hs1, hwithin⟩ := attemptsWithin_exist (s.mirror.encode r) 9 h
  have hlegal := (legalAttempts_iff _ _).2 hwithin
  have hten : n ≤ 10 := by
    obtain rfl := takePairs_length hpairs
    exact hlegal.2.1
  have hnext := BusyRun.of_bNext hp
  have hne : s.seq ≠ 7 := fun h7 => by simp [h7] at hseq
  rw [bulkNextPhase_of_write (by omega) hwrite, if_neg hne] at hnext
  have hrun := verifiedWrite_run
    (s := { s with cur := s.seq.setWidth 3, seq := s.seq + 1, phase := .wEncode }) rfl hs hr.symm
    (takePairs_of_environment (s := s) rfl rfl hpairs) (takeDelays_of_free (n - 1) h.2) hlegal
  refine ⟨1 + 4 * n, _, ps, by omega, hnext.trans hrun, hlegal, ?_⟩
  exact .finish hop rfl rfl rfl rfl rfl hs rfl rfl ⟨hs1.1, h.2⟩ rfl

/-- The pass of STATUS on a Transport that answers: one exchange, which does not fail (R135, R142). -/
theorem statusRegister_pass {s : State} (hp : s.phase = .bNext) (hop : s.op.isBulk = true) (hwrite : s.op ≠ .readAll)
    (hs : s.select = false) (h : s.neverHangs) (hseq : s.seq = 7) :
    ∃ (u : State) (q : Frame), BusyRun 3 s u ∧ BulkPass 1 true (exchangeEvents (s.mirror.encode .status) q) s u := by
  obtain ⟨q, s1, hans, hs1⟩ := takeAnswer_of_neverHangs h
  have hnext := BusyRun.of_bNext hp
  rw [bulkNextPhase_of_write (by rw [hseq]; decide) hwrite, if_pos hseq] at hnext
  have hrun := statusWrite_run (s := { s with cur := s.seq.setWidth 3, seq := s.seq + 1, phase := .sEncode }) rfl hs
    (takeAnswer_of_environment (s := s) rfl rfl hans)
  refine ⟨_, q, hnext.trans hrun, ?_⟩
  exact .finish (matched := true) hop rfl rfl (by simp) rfl rfl hs rfl rfl ⟨hs1.1, h.2⟩ rfl

/-! ### The walk over the registers -/

theorem Reg.all_nodup : Reg.all.Nodup := by decide

/-- A choice of attempts for one more register: those of the others stand. -/
def withAttempts (r : Reg) (ps : List (Frame × Frame)) (rest : Reg → List (Frame × Frame)) : Reg → List (Frame × Frame) :=
  fun r' => if r' = r then ps else rest r'

@[simp] theorem withAttempts_self (r : Reg) (ps : List (Frame × Frame)) (rest : Reg → List (Frame × Frame)) :
    withAttempts r ps rest r = ps := if_pos rfl

theorem withAttempts_of_mem {r r' : Reg} {rs : List Reg} (hnot : r ∉ rs) (h : r' ∈ rs) (ps : List (Frame × Frame))
    (rest : Reg → List (Frame × Frame)) : withAttempts r ps rest r' = rest r' :=
  if_neg fun he : r' = r => hnot (he ▸ h)

/-- The verified registers that are left before STATUS, in address order: a legal run of attempts of each (R142). -/
theorem verifiedRegisters_pass {rs : List Reg} {s : State} (hrs : Reg.all.drop s.seq.toNat = rs ++ [.status])
    (hp : s.phase = .bNext) (hop : s.op.isBulk = true) (hwrite : s.op ≠ .readAll) (hs : s.select = false)
    (h : s.neverHangs) :
    ∃ (k : Nat) (u : State) (ps : Reg → List (Frame × Frame)), k ≤ 41 * rs.length ∧ BusyRun k s u ∧
      (∀ r ∈ rs, legalAttempts (s.mirror.encode r) (ps r)) ∧
      BulkPass rs.length (rs.all fun r => attemptsMatched (s.mirror.encode r) (ps r))
        (rs.flatMap fun r => writeEvents (s.mirror.encode r) r.addr 1 (ps r)) s u := by
  induction rs generalizing s with
  | nil => exact ⟨0, s, fun _ => [], Nat.le_refl 0, .refl s, by simp, .refl hp hs h⟩
  | cons r rs ih =>
    have hlen : 8 - s.seq.toNat = rs.length + 2 := by
      have hdrop := congrArg List.length hrs
      simpa [Reg.all] using hdrop
    have hseq : s.seq.toNat < 7 := by omega
    have hnodup : (r :: rs ++ [Reg.status]).Nodup := hrs ▸ Reg.all_nodup.sublist (List.drop_sublist _ _)
    have hnot : r ∉ rs := fun hmem => by
      rw [List.cons_append, List.nodup_cons] at hnodup
      exact hnodup.1 (List.mem_append_left _ hmem)
    rw [Reg.all_drop_seq (by omega), List.cons_append] at hrs
    obtain ⟨hr, hleft⟩ := List.cons.inj hrs
    obtain ⟨k, u, ps, hk, hrun, hlegal, hpass⟩ := verifiedRegister_pass (r := r) hp hop hwrite hs h hseq (by
      rw [← hr, Reg.addr_ofAddr])
    obtain ⟨k', v, pss, hk', hrun', hlegal', hpass'⟩ := ih (s := u) (by rw [hpass.seq]; exact hleft) hpass.phase
      (hpass.op ▸ hop) (hpass.op ▸ hwrite) hpass.select hpass.neverHangs
    rw [hpass.mirror] at hlegal' hpass'
    have hsame : ∀ r' ∈ rs, withAttempts r ps pss r' = pss r' := fun r' hr' => withAttempts_of_mem hnot hr' ps pss
    refine ⟨k + k', v, withAttempts r ps pss, by rw [List.length_cons]; omega, hrun.trans hrun', ?_, ?_⟩
    · refine List.forall_mem_cons.2 ⟨by rwa [withAttempts_self], fun r' hr' => ?_⟩
      rw [hsame r' hr']
      exact hlegal' r' hr'
    · have hall : (rs.all fun r' => attemptsMatched (s.mirror.encode r') (withAttempts r ps pss r')) =
          rs.all fun r' => attemptsMatched (s.mirror.encode r') (pss r') := by
        rw [Bool.eq_iff_iff, List.all_eq_true, List.all_eq_true]
        exact forall₂_congr fun r' hr' => by rw [hsame r' hr']
      have hevents : (rs.flatMap fun r' => writeEvents (s.mirror.encode r') r'.addr 1 (withAttempts r ps pss r')) =
          rs.flatMap fun r' => writeEvents (s.mirror.encode r') r'.addr 1 (pss r') :=
        List.flatMap_congr fun r' hr' => by rw [hsame r' hr']
      rw [List.all_cons, List.flatMap_cons, hall, hevents, withAttempts_self, List.length_cons, Nat.add_comm]
      exact hpass.trans hpass'

/-! ### The command -/

theorem exec_of_bulkWriteOf {i : Instr} {op : Op} {m : Mirror} {s : State}
    (h : bulkWriteOf s.mirror i = some (op, m)) (hp : s.phase = .idle) :
    exec i s = .next { s with mirror := m, cmdValid := false, op := op, seq := 0, acc := true, phase := .bNext } := by
  cases i with
  | writeAll =>
    cases h
    exact accept_idle (startBulk .writeAll) hp
  | init =>
    cases h
    exact accept_idle (fun s => startBulk .init { s with mirror := Mirror.defaults }) hp
  | _ => cases h

/-- All eight registers from the first B_NEXT to the last (R142). -/
theorem allRegisters_pass {s : State} (hp : s.phase = .bNext) (hop : s.op.isBulk = true) (hwrite : s.op ≠ .readAll)
    (hseq : s.seq = 0) (hs : s.select = false) (h : s.neverHangs) :
    ∃ (k : Nat) (u : State) (ps : Reg → List (Frame × Frame)) (q : Frame), k ≤ 290 ∧ BusyRun k s u ∧
      (∀ r ∈ verifiedRegs, legalAttempts (s.mirror.encode r) (ps r)) ∧
      BulkPass 8 (bulkMatched s.mirror ps) (bulkWriteEvents s.mirror ps q) s u := by
  obtain ⟨k, u, ps, hk, hrun, hlegal, hpass⟩ := verifiedRegisters_pass (rs := verifiedRegs)
    (by rw [hseq]; rfl) hp hop hwrite hs h
  have hseven : u.seq = 7 := by rw [hpass.seq, hseq]; rfl
  obtain ⟨v, q, hrun', hpass'⟩ := statusRegister_pass hpass.phase (hpass.op ▸ hop) (hpass.op ▸ hwrite) hpass.select
    hpass.neverHangs hseven
  rw [hpass.mirror] at hpass'
  have hboth := hpass.trans hpass'
  rw [Bool.and_true] at hboth
  have hlen : verifiedRegs.length = 7 := rfl
  exact ⟨k + 3, v, ps, q, by omega, hrun.trans hrun', hlegal, hboth⟩

/-! ### The counts of a bulk write's events -/

theorem done_not_mem_bulkWriteEvents (m : Mirror) (ps : Reg → List (Frame × Frame)) (q : Frame) (res : Result) :
    .done res ∉ bulkWriteEvents m ps q := by
  simp [bulkWriteEvents, done_not_mem_writeEvents, exchangeEvents]

/-- Two exchanges to an attempt of a verified register, and one for STATUS (R142). -/
theorem exchangeCount_bulkWriteEvents (m : Mirror) (ps : Reg → List (Frame × Frame)) (q : Frame) :
    exchangeCount (bulkWriteEvents m ps q) = 2 * (verifiedRegs.map fun r => (ps r).length).sum + 1 := by
  simp only [bulkWriteEvents, verifiedRegs, List.flatMap_cons, List.flatMap_nil, List.append_nil, exchangeCount_append,
    exchangeCount_writeEvents, List.map_cons, List.map_nil, List.sum_cons, List.sum_nil]
  have hstatus : exchangeCount (exchangeEvents (m.encode .status) q) = 1 := rfl
  omega

/-- The delays of the attempts of some registers, one register after the other (R127). -/
def registerDelays (ps : Reg → List (Frame × Frame)) (rs : List Reg) : List Nat :=
  rs.flatMap fun r => List.range' 1 ((ps r).length - 1)

theorem delayArgs_bulkWriteEvents (m : Mirror) (ps : Reg → List (Frame × Frame)) (q : Frame) :
    delayArgs (bulkWriteEvents m ps q) = registerDelays ps verifiedRegs := by
  have hstatus : delayArgs (exchangeEvents (m.encode .status) q) = [] := rfl
  simp only [bulkWriteEvents, registerDelays, verifiedRegs, List.flatMap_cons, List.flatMap_nil, List.append_nil,
    delayArgs_append, delayArgs_writeEvents, hstatus]

/-- The delays 1 to `k`, of at most nine, are at most 45 units (R127). -/
theorem sum_range'_le {k : Nat} (h : k ≤ 9) : (List.range' 1 k).sum ≤ 45 := by
  interval_cases k <;> decide

section
variable {ps : Reg → List (Frame × Frame)} {rs : List Reg}

/-- A delay after each attempt of a register but the last (R127). -/
theorem registerDelays_length (h : ∀ r ∈ rs, 1 ≤ (ps r).length) :
    (registerDelays ps rs).length + rs.length = (rs.map fun r => (ps r).length).sum := by
  induction rs with
  | nil => rfl
  | cons r rs ih =>
    obtain ⟨hr, hrs⟩ := List.forall_mem_cons.1 h
    have hrest := ih hrs
    simp only [registerDelays, List.flatMap_cons, List.length_append, List.length_range', List.length_cons,
      List.map_cons, List.sum_cons] at hrest ⊢
    omega

theorem registerDelays_length_le (h : ∀ r ∈ rs, (ps r).length ≤ 10) :
    (registerDelays ps rs).length ≤ 9 * rs.length := by
  induction rs with
  | nil => exact Nat.le_refl 0
  | cons r rs ih =>
    obtain ⟨hr, hrs⟩ := List.forall_mem_cons.1 h
    have hrest := ih hrs
    simp only [registerDelays, List.flatMap_cons, List.length_append, List.length_range', List.length_cons] at hrest ⊢
    omega

theorem registerDelays_sum_le (h : ∀ r ∈ rs, (ps r).length ≤ 10) : (registerDelays ps rs).sum ≤ 45 * rs.length := by
  induction rs with
  | nil => exact Nat.le_refl 0
  | cons r rs ih =>
    obtain ⟨hr, hrs⟩ := List.forall_mem_cons.1 h
    have hrest := ih hrs
    have hfirst : (List.range' 1 ((ps r).length - 1)).sum ≤ 45 := sum_range'_le (by omega)
    simp only [registerDelays, List.flatMap_cons, List.sum_append, List.length_cons] at hrest ⊢
    omega

/-- Ten attempts of one register are nine delays, of 45 units (R127). -/
theorem registerDelays_of_ten {r : Reg} (hr : r ∈ rs) (h : (ps r).length = 10) :
    9 ≤ (registerDelays ps rs).length ∧ 45 ≤ (registerDelays ps rs).sum := by
  have hnine : (List.range' 1 ((ps r).length - 1)).Sublist (registerDelays ps rs) := by
    have hsub := (List.singleton_sublist.2 hr).flatMap fun r => List.range' 1 ((ps r).length - 1)
    rwa [List.flatMap_singleton] at hsub
  rw [h] at hnine
  exact ⟨hnine.length_le, hnine.sum_le_sum (fun _ _ => Nat.zero_le _)⟩

end

/-- A bulk write that failed made ten attempts of some register (R124, R142). -/
theorem exists_ten_of_unmatched {m : Mirror} {ps : Reg → List (Frame × Frame)}
    (hlegal : ∀ r ∈ verifiedRegs, legalAttempts (m.encode r) (ps r)) (h : bulkMatched m ps = false) :
    ∃ r ∈ verifiedRegs, (ps r).length = 10 := by
  obtain ⟨r, hr, hm⟩ := List.all_eq_false.1 h
  exact ⟨r, hr, legalAttempts_length_of_unmatched (hlegal r hr) (Bool.eq_false_of_not_eq_true hm)⟩

end Sys2Proof.Machine

open Sys2Proof Sys2Proof.Machine

/-- Settles O26: the pass of the verified registers by induction on those left, the pass of STATUS, and the last B_NEXT. -/
theorem bulkWriteRunsEveryRegister : Obligations.BulkWriteRunsEveryRegister := by
  unfold Obligations.BulkWriteRunsEveryRegister
  intro i op m s h hp hs hn
  have hop : op.isBulk = true ∧ op ≠ .readAll := by
    obtain rfl | rfl := bulkWriteOf_op h <;> decide
  refine ⟨_, exec_of_bulkWriteOf h hp, rfl, ?_⟩
  obtain ⟨k, u, ps, q, hk, ⟨hrun, -⟩, hlegal, hpass⟩ := allRegisters_pass
    (s := { s with mirror := m, cmdValid := false, op := op, seq := 0, acc := true, phase := .bNext })
    rfl hop.1 hop.2 rfl hs hn
  have hlast : step u = .next (done u.bulkResult u) := by
    rw [step_bNext hpass.phase, bulkNextPhase_of_eight hpass.seq]
  have hresult : u.bulkResult = .ofMatched (bulkMatched m ps) := by
    rw [State.bulkResult, hpass.acc]
    rfl
  refine ⟨k + 1, done u.bulkResult u, ps, q, by omega, ?_, hlegal, rfl, hpass.mirror, hpass.select, hpass.cmdValid,
    hpass.hostQueue, hpass.err, ?_⟩
  · rw [steps_add_of_next k 1 hrun, steps_succ_of_next 0 hlast, steps_zero]
  · rw [done_history, hpass.history, hresult]

/-- Settles O27: the events of the run are counted register by register. -/
theorem bulkWriteCounts : Obligations.BulkWriteCounts := by
  unfold Obligations.BulkWriteCounts
  intro i op m s h hp hs hn
  obtain ⟨t, hexec, -, k, u, ps, q, hk, hrun, hlegal, hidle, -, -, -, -, herr, hhist⟩ :=
    bulkWriteRunsEveryRegister i op m s h hp hs hn
  have hlow : ∀ r ∈ verifiedRegs, 1 ≤ (ps r).length := fun r hr => (hlegal r hr).1
  have hhigh : ∀ r ∈ verifiedRegs, (ps r).length ≤ 10 := fun r hr => (hlegal r hr).2.1
  have hseven : verifiedRegs.length = 7 := rfl
  have hlength := registerDelays_length hlow
  have hbound := registerDelays_length_le hhigh
  have hunits := registerDelays_sum_le hhigh
  have hcount := exchangeCount_bulkWriteEvents m ps q
  refine ⟨t, u, k, bulkWriteEvents m ps q, _, hk, hexec, hrun, hidle, hhist, done_not_mem_bulkWriteEvents m ps q, ?_⟩
  rw [delayArgs_bulkWriteEvents, hcount]
  refine ⟨by omega, by omega, by omega, by omega, by omega, fun hok => ?_, fun hfail => ?_⟩
  · cases hm : bulkMatched m ps with
    | true => rw [herr, hm, Bool.not_true, Bool.or_false]
    | false => rw [hm] at hok; cases hok
  · cases hm : bulkMatched m ps with
    | true => rw [hm] at hfail; cases hfail
    | false =>
      obtain ⟨r, hr, hten⟩ := exists_ten_of_unmatched hlegal hm
      obtain ⟨hnine, hsum⟩ := registerDelays_of_ten hr hten
      exact ⟨by rw [herr, hm, Bool.not_false, Bool.or_true], by omega, hsum⟩
end
